-- ==== Sys2Proof/Word.lean ====
section
/-! DEFINITION. The one data width of the hardware: the byte (spec/00_scope.md rule R8).

A byte is eight bits, unsigned, bit 7 most significant.  A one-bit register or input of the spec is
a `Bool` (`true` is 1), since the spec never adds, shifts or masks one.  Counters that the spec
gives as an integer range (`rx_cnt`, `tx_idx`, `tx_len`, `tmr_cnt`) are `Nat`, with their ranges in
the invariants of `Sys2Proof/Safety.lean`. -/

namespace Sys2Proof

/-- R8: "A byte is an unsigned integer 0..255, 8 bits." -/
abbrev Byte := BitVec 8

/-- A byte with bit `j` inverted (spec/40_checksum.md rule R84). -/
def Byte.flipBit (b : Byte) (j : Nat) : Byte := b ^^^ BitVec.twoPow 8 j

end Sys2Proof
end

