-- ==== Sys2Proof/Config.lean ====
section
/-! DEFINITION. Parameters of the hardware: the values the spec states (spec/00_scope.md rule R6),
the parameters it leaves open (rule R7) as constants without a body, and the free values (`draw`,
rule R8, and the registers that rule R29 leaves unspecified after a `RESET` event).

Nothing in Lean can evaluate a constant declared `opaque` here, so whatever is proved holds for
every value of it. -/

namespace Sys2Proof.Config

/-! ## Parameters the spec states (R6) -/

/-- R6, R61: the constant first byte of every frame. -/
@[simp] abbrev preamble : Byte := 0x40
/-- R6, R62: the largest payload length. -/
@[simp] abbrev maxPayload : Nat := 64
/-- R6: bytes of a frame before its payload. -/
@[simp] abbrev hdrLen : Nat := 4
/-- R6: bytes of a frame beside its payload. -/
@[simp] abbrev overhead : Nat := 5
/-- R6: bytes of the longest frame. -/
@[simp] abbrev maxFrame : Nat := 69
/-- R6: number of channels. -/
@[simp] abbrev nCh : Nat := 30
/-- R6: number of bytes the receiver collects. -/
@[simp] abbrev rxLen : Nat := 30
/-- R6: phase offset from one channel to the next. -/
@[simp] abbrev stagger : Nat := 8
/-- R6, R24: the default bit rate. -/
@[simp] abbrev baudDefault : Nat := 115200
/-- R6: data bits of a serial character. -/
@[simp] abbrev dataBits : Nat := 8
/-- R6: stop bits of a serial character. -/
@[simp] abbrev stopBits : Nat := 1
/-- R6: steps of one PWM cycle; the phase counter has 8 bits. -/
@[simp] abbrev phaseMod : Nat := 256
/-- R6: lamp fixtures. -/
@[simp] abbrev nFixtures : Nat := 10
/-- R7, decision D28: the direction line exists on this hardware. -/
@[simp] abbrev halfDuplex : Bool := true

/-! ## The checksum (R7, R81 to R84) -/

/-- An instance of the open checksum parameter: a start value and a step, whose left fold meets R84
(inverting one bit of one byte changes the checksum).  The default values only show that such an
instance exists; the machine uses `checksum`, about which nothing but these fields is known. -/
structure ChecksumParam where
  /-- `CK_INIT`. -/
  init : Byte := 0
  /-- `CK_STEP`: first argument the running value, second the next data byte. -/
  step : Byte → Byte → Byte := fun c b => c ^^^ b
  /-- R84: single-bit sensitivity. -/
  singleBit : ∀ (bytes : List Byte) (k : Nat) (hk : k < bytes.length) (j : Nat), j < 8 →
      (bytes.set k (Byte.flipBit bytes[k] j)).foldl step init ≠ bytes.foldl step init := by
    intro bytes k hk j hj
    have key : ∀ (l : List Byte) (c d : Byte), c ≠ d →
        l.foldl (fun c b => c ^^^ b) c ≠ l.foldl (fun c b => c ^^^ b) d := by
      intro l
      induction l with
      | nil => intro c d h; simpa using h
      | cons x xs ih => intro c d h; exact ih _ _ (by simpa using h)
    have split : bytes = bytes.take k ++ bytes[k] :: bytes.drop (k + 1) := by simp
    have hset : bytes.set k (Byte.flipBit bytes[k] j)
        = bytes.take k ++ Byte.flipBit bytes[k] j :: bytes.drop (k + 1) := by
      simp [List.set_eq_take_append_cons_drop, hk]
    rw [hset]
    conv => rhs; rw [split]
    simp only [List.foldl_append, List.foldl_cons]
    refine key _ _ _ ?_
    intro h
    have h2 := congrArg (fun v : BitVec 8 => v.getLsbD j) h
    simp [Byte.flipBit, hj] at h2
  deriving Inhabited

/-- The checksum of this hardware: the spec does not say which (R81, decision D5). -/
opaque checksum : ChecksumParam

/-- `CK_INIT` (R83). -/
def ckInit : Byte := checksum.init
/-- `CK_STEP` (R81). -/
def ckStep : Byte → Byte → Byte := checksum.step

/-! ## The idle timeout (R7, decision D15) -/

/-- One less than `T_IDLE`. -/
opaque tIdlePred : Nat

/-- `T_IDLE`, a number of `TICK` events, at least 1. -/
def tIdle : Nat := tIdlePred + 1

/-! ## Rates (R7, decisions D15, D31): no rule depends on either.  R7 gives them no form; that each is a
natural number of events in a second is a DESIGN CHOICE (notes/assumptions/22.md). -/

/-- `PWM_RATE`: `PWM_STEP` events in a second (the form: notes/assumptions/22.md). -/
opaque pwmRate : Nat
/-- `TICK_RATE`: `TICK` events in a second (the form: notes/assumptions/22.md). -/
opaque tickRate : Nat

/-! ## Wiring (R7, decisions D7, D20, D26): used by no rule of the step -/

/-- A pin: a port register and a bit of it. -/
structure Pin where
  port : Nat
  bit : Nat
  deriving DecidableEq, Repr

/-- An injective map from channels to pins (R161). -/
structure PinMap where
  pin : Fin 30 → Pin := fun i => ⟨i.val / 8, i.val % 8⟩
  injective : Function.Injective pin := by
    intro a b h
    simp only [Pin.mk.injEq] at h
    omega
  deriving Inhabited

/-- `PINMAP`. -/
opaque pinMap : PinMap

/-- A bijection from (fixture, colour) to channels (R7): injective, hence bijective, since both
sides have 30 elements. -/
structure ChanMap where
  channel : Fin 10 × Fin 3 → Fin 30 := fun p => ⟨3 * p.1.val + p.2.val, by omega⟩
  injective : Function.Injective channel := by
    intro a b h
    simp only [Fin.mk.injEq] at h
    ext <;> omega
  deriving Inhabited

/-- `CHANMAP`. -/
opaque chanMap : ChanMap

/-- `DE_POLARITY`: whether the electrically high level of the direction line means transmit. -/
opaque deActiveHigh : Bool
/-- `OUT_POLARITY`: whether an electrically high output lights its lamp. -/
opaque outActiveHigh : Bool

/-! ## Free values.  Each is applied to a counter of `State`, so that every draw is a fresh one. -/

/-- R112: the level of `DE` after an aborted send. -/
opaque drawDE : Nat → Bool
/-- R112: whether an aborted send throws the queued bytes away. -/
opaque drawDropQueue : Nat → Bool
/-- R29: `staging` after `RESET(DB)`. -/
opaque drawStaging : Nat → Vector Byte 30
/-- R29: `tmr_cnt` after `RESET(DB)`, before it is brought into its range 0..`T_IDLE`. -/
opaque drawTmrCnt : Nat → Nat
/-- R29: `txbuf` after `RESET(HB)`. -/
opaque drawTxbuf : Nat → Vector Byte 69
/-- R29: `tx_len` after `RESET(HB)`, before it is brought into its range 5..69. -/
opaque drawTxLen : Nat → Nat
/-- R29: `tx_idx` after `RESET(HB)`, before it is brought into its range 0..69. -/
opaque drawTxIdx : Nat → Nat
/-- R29: `cfg.baud` after `RESET(HB)`. -/
opaque drawBaud : Nat → Nat

end Sys2Proof.Config
end

