-- ==== Sys2Proof/Syntax.lean ====
section
/-! DEFINITION. The operations and events of the hardware, one constructor per row of
spec/opcode_table.json (spec/30_encoding.md rule R66 and, for `frame`, rule R60). -/

namespace Sys2Proof

/-- R2: the host block and the device block. -/
inductive Block where
  | hb
  | db
  deriving DecidableEq, Repr

/-- R101: how the claim of the direction output went. -/
inductive Claim where
  | ok
  | already
  | fail
  deriving DecidableEq, Repr

/-- The events of R66, and the wire frame of R60 as the one data format of the table. -/
inductive Instr where
  /-- `RESET` (R200). -/
  | reset (block : Block)
  /-- `CK_CREATE` (R85). -/
  | ckCreate (bytes : List Byte)
  /-- `CK_VERIFY` (R86). -/
  | ckVerify (bytes : List Byte) (expected : Byte)
  /-- `ENCODE` (R91): source first (R71). -/
  | frameEncode (source destination : Byte) (payload : List Byte)
  /-- `DECODE` (R93). -/
  | frameDecode (bytes : List Byte)
  /-- `BT_INIT` (R102): the bit rate and the environment's three answers. -/
  | btInit (baud : Nat) (openOk cfgOk : Bool) (claim : Claim)
  /-- `SEND` (R104 to R106): source first (R71). -/
  | send (source destination : Byte) (payload : List Byte)
  /-- `BT_SHUTDOWN` (R114): the environment's two answers. -/
  | btShutdown (releaseOk closeOk : Bool)
  /-- `TX_ASSERT` (R107). -/
  | txAssert
  /-- `TX_WRITE` (R108). -/
  | txWrite
  /-- `TX_DRAIN_DONE` (R110). -/
  | txDrainDone
  /-- `TX_RELEASE` (R111). -/
  | txRelease
  /-- `LINE_BYTE` (R109). -/
  | lineByte
  /-- `IO_ERROR` (R112). -/
  | ioError
  /-- `DEV_INIT` (R204). -/
  | devInit
  /-- `RX_BYTE` (R131). -/
  | rxByte (b : Byte)
  /-- `TICK` (R134). -/
  | tick
  /-- `PWM_STEP` (R151). -/
  | pwmStep
  /-- `IDLE_TIMEOUT` (R135). -/
  | idleTimeout
  /-- `TRANSFER` (R156). -/
  | transfer
  /-- `FRAME` (R60): a wire frame standing where an event record should; its fields in wire order. -/
  | frame (destination source : Byte) (payload : List Byte) (checksum : Byte)
  deriving DecidableEq, Repr

end Sys2Proof
end

