-- ==== Sys2Proof/WellFormed.lean ====
section
/-! DEFINITION. Which terms of `Instr` a record can carry (spec/30_encoding.md rules R62, R67). -/

namespace Sys2Proof

/-- R67: the payload of `ENCODE` and `SEND` is preceded by ONE length byte.  (A payload of 65..255
bytes is well-formed and is answered with `ValidationError`.) -/
def payloadFits (payload : List Byte) : Bool := payload.length ≤ 255

/-- R62: the payload of a wire frame has at most 64 bytes. -/
def framePayloadFits (payload : List Byte) : Bool := payload.length ≤ 64

/-- Well-formedness of an instruction. -/
def Instr.wf : Instr → Bool
  | .reset _ => true
  | .ckCreate _ => true
  | .ckVerify _ _ => true
  | .frameEncode _ _ payload => payloadFits payload
  | .frameDecode _ => true
  | .btInit _ _ _ _ => true
  | .send _ _ payload => payloadFits payload
  | .btShutdown _ _ => true
  | .txAssert => true
  | .txWrite => true
  | .txDrainDone => true
  | .txRelease => true
  | .lineByte => true
  | .ioError => true
  | .devInit => true
  | .rxByte _ => true
  | .tick => true
  | .pwmStep => true
  | .idleTimeout => true
  | .transfer => true
  | .frame _ _ payload _ => framePayloadFits payload

end Sys2Proof
end

