-- ==== Sys2Proof/Decode.lean ====
section
/-! DEFINITION. Event records (spec/30_encoding.md rules R66, R67, R69) and the wire frame (R60):
a total decoder from bytes, rejecting by name, and the encoder written from the same tables.

A record is the code byte of R66 followed by the operands in the order R66 lists them.  R67 fixes: a
byte operand is one byte; a byte sequence is its length followed by its bytes; the length of a
`payload` is one byte.  Where R67 gives no bytes the layout is this model's (DESIGN CHOICE,
notes/assumptions/3.md): a number of no stated size (the length of the sequence of `CK_CREATE`,
`CK_VERIFY`, `DECODE`, and `baud`) is written in groups of seven bits, least significant first, bit 7
set on every byte but the last, with no needless last group; an environment bit is one byte, 0 or 1;
`claim` is 0 (`ok`), 1 (`already`) or 2 (`fail`); `block` is 0 (HB) or 1 (DB). -/

namespace Sys2Proof

/-- Why a byte sequence begins with no event record (R69: "names no event"). -/
inductive DecodeError where
  /-- The bytes end before the record does. -/
  | truncated
  /-- R69: the code is not in the table. -/
  | unknownCode (code : Byte)
  /-- The operand `block` is neither 0 nor 1. -/
  | badBlock (b : Byte)
  /-- An environment bit is neither 0 nor 1. -/
  | badBit (b : Byte)
  /-- The operand `claim` is none of 0, 1, 2. -/
  | badClaim (b : Byte)
  /-- A number carries a needless last group. -/
  | overlongNumber
  /-- R62, R68: the length byte of a wire frame is above 64. -/
  | frameTooLong (len : Byte)
  deriving DecidableEq, Repr

/-! ## Operand readers: each answers the operand and the bytes after it -/

/-- One byte. -/
def takeByte : List Byte → Except DecodeError (Byte × List Byte)
  | [] => .error .truncated
  | b :: rest => .ok (b, rest)

/-- `n` bytes. -/
def takeBytes (n : Nat) (bs : List Byte) : Except DecodeError (List Byte × List Byte) :=
  if n ≤ bs.length then .ok (bs.take n, bs.drop n) else .error .truncated

/-- A number of no stated size. -/
def takeNat : List Byte → Except DecodeError (Nat × List Byte)
  | [] => .error .truncated
  | b :: rest =>
    if b.toNat < 128 then .ok (b.toNat, rest)
    else
      match takeNat rest with
      | .error e => .error e
      | .ok (n, rest') =>
        if n = 0 then .error .overlongNumber else .ok (b.toNat - 128 + 128 * n, rest')

/-- An environment bit. -/
def takeBit : List Byte → Except DecodeError (Bool × List Byte)
  | [] => .error .truncated
  | b :: rest =>
    if b = 0 then .ok (false, rest) else if b = 1 then .ok (true, rest) else .error (.badBit b)

/-- `claim`. -/
def takeClaim : List Byte → Except DecodeError (Claim × List Byte)
  | [] => .error .truncated
  | b :: rest =>
    if b = 0 then .ok (.ok, rest)
    else if b = 1 then .ok (.already, rest)
    else if b = 2 then .ok (.fail, rest)
    else .error (.badClaim b)

/-- `block`. -/
def takeBlock : List Byte → Except DecodeError (Block × List Byte)
  | [] => .error .truncated
  | b :: rest =>
    if b = 0 then .ok (.hb, rest) else if b = 1 then .ok (.db, rest) else .error (.badBlock b)

/-- A byte sequence of any length: its length, then its bytes (R67). -/
def takeSeq (bs : List Byte) : Except DecodeError (List Byte × List Byte) := do
  let (n, bs) ← takeNat bs
  takeBytes n bs

/-- A payload: its length in one byte, then its bytes (R67). -/
def takePayload (bs : List Byte) : Except DecodeError (List Byte × List Byte) := do
  let (n, bs) ← takeByte bs
  takeBytes n.toNat bs

/-- `source`, `destination`, `payload`: the operands of `ENCODE` and `SEND`, source first (R71). -/
def takeSendOperands (bs : List Byte) :
    Except DecodeError ((Byte × Byte × List Byte) × List Byte) := do
  let (source, bs) ← takeByte bs
  let (destination, bs) ← takeByte bs
  let (payload, bs) ← takePayload bs
  return ((source, destination, payload), bs)

/-- The operands of `BT_INIT`. -/
def takeBtInit (bs : List Byte) : Except DecodeError (Instr × List Byte) := do
  let (baud, bs) ← takeNat bs
  let (openOk, bs) ← takeBit bs
  let (cfgOk, bs) ← takeBit bs
  let (claim, bs) ← takeClaim bs
  return (.btInit baud openOk cfgOk claim, bs)

/-- The bytes of a wire frame after its preamble, in wire order: destination, source, length,
payload, checksum (R60). -/
def takeFrame (bs : List Byte) : Except DecodeError (Instr × List Byte) := do
  let (destination, bs) ← takeByte bs
  let (source, bs) ← takeByte bs
  let (len, bs) ← takeByte bs
  if len.toNat ≤ 64 then
    let (payload, bs) ← takeBytes len.toNat bs
    let (checksum, bs) ← takeByte bs
    return (.frame destination source payload checksum, bs)
  else throw (.frameTooLong len)

/-- The operands of the event whose code is `code` (the table of R66). -/
def decodeOperands (code : Byte) (bs : List Byte) : Except DecodeError (Instr × List Byte) :=
  if code = 0x00 then do let (block, bs) ← takeBlock bs; return (.reset block, bs)
  else if code = 0x01 then do let (bytes, bs) ← takeSeq bs; return (.ckCreate bytes, bs)
  else if code = 0x02 then do
    let (bytes, bs) ← takeSeq bs
    let (expected, bs) ← takeByte bs
    return (.ckVerify bytes expected, bs)
  else if code = 0x03 then do
    let ((source, destination, payload), bs) ← takeSendOperands bs
    return (.frameEncode source destination payload, bs)
  else if code = 0x04 then do let (bytes, bs) ← takeSeq bs; return (.frameDecode bytes, bs)
  else if code = 0x10 then takeBtInit bs
  else if code = 0x11 then do
    let ((source, destination, payload), bs) ← takeSendOperands bs
    return (.send source destination payload, bs)
  else if code = 0x12 then do
    let (releaseOk, bs) ← takeBit bs
    let (closeOk, bs) ← takeBit bs
    return (.btShutdown releaseOk closeOk, bs)
  else if code = 0x18 then .ok (.txAssert, bs)
  else if code = 0x19 then .ok (.txWrite, bs)
  else if code = 0x1A then .ok (.txDrainDone, bs)
  else if code = 0x1B then .ok (.txRelease, bs)
  else if code = 0x1C then .ok (.lineByte, bs)
  else if code = 0x1D then .ok (.ioError, bs)
  else if code = 0x20 then .ok (.devInit, bs)
  else if code = 0x21 then do let (b, bs) ← takeByte bs; return (.rxByte b, bs)
  else if code = 0x22 then .ok (.tick, bs)
  else if code = 0x23 then .ok (.pwmStep, bs)
  else if code = 0x28 then .ok (.idleTimeout, bs)
  else if code = 0x29 then .ok (.transfer, bs)
  else if code = 0x40 then takeFrame bs
  else .error (.unknownCode code)

/-- The first record of a byte sequence and the bytes after it. -/
def decode : List Byte → Except DecodeError (Instr × List Byte)
  | [] => .error .truncated
  | code :: bs => decodeOperands code bs

/-! ## The encoder -/

/-- The groups of a number of no stated size; `fuel` bounds their count. -/
def encodeNatFuel : Nat → Nat → List Byte
  | 0, n => [BitVec.ofNat 8 n]
  | fuel + 1, n =>
    if n < 128 then [BitVec.ofNat 8 n]
    else BitVec.ofNat 8 (128 + n % 128) :: encodeNatFuel fuel (n / 128)

/-- A number of no stated size. -/
def encodeNat (n : Nat) : List Byte := encodeNatFuel n n

/-- A byte sequence of any length. -/
def encodeSeq (bytes : List Byte) : List Byte := encodeNat bytes.length ++ bytes

/-- A payload. -/
def encodePayload (payload : List Byte) : List Byte := BitVec.ofNat 8 payload.length :: payload

/-- An environment bit. -/
def encodeBit (b : Bool) : Byte := if b then 1 else 0

/-- `claim`. -/
def encodeClaim : Claim → Byte
  | .ok => 0
  | .already => 1
  | .fail => 2

/-- `block`. -/
def encodeBlock : Block → Byte
  | .hb => 0
  | .db => 1

/-- The record of a well-formed instruction. -/
def encode : Instr → List Byte
  | .reset block => [0x00, encodeBlock block]
  | .ckCreate bytes => 0x01 :: encodeSeq bytes
  | .ckVerify bytes expected => 0x02 :: (encodeSeq bytes ++ [expected])
  | .frameEncode source destination payload =>
    0x03 :: source :: destination :: encodePayload payload
  | .frameDecode bytes => 0x04 :: encodeSeq bytes
  | .btInit baud openOk cfgOk claim =>
    0x10 :: (encodeNat baud ++ [encodeBit openOk, encodeBit cfgOk, encodeClaim claim])
  | .send source destination payload => 0x11 :: source :: destination :: encodePayload payload
  | .btShutdown releaseOk closeOk => [0x12, encodeBit releaseOk, encodeBit closeOk]
  | .txAssert => [0x18]
  | .txWrite => [0x19]
  | .txDrainDone => [0x1A]
  | .txRelease => [0x1B]
  | .lineByte => [0x1C]
  | .ioError => [0x1D]
  | .devInit => [0x20]
  | .rxByte b => [0x21, b]
  | .tick => [0x22]
  | .pwmStep => [0x23]
  | .idleTimeout => [0x28]
  | .transfer => [0x29]
  | .frame destination source payload checksum =>
    0x40 :: destination :: source :: (encodePayload payload ++ [checksum])

/-! ## The other columns of the table of R66 -/

/-- R66: the code of an event; for the wire frame, its first byte (R61). -/
def Instr.code : Instr → Byte
  | .reset _ => 0x00
  | .ckCreate _ => 0x01
  | .ckVerify _ _ => 0x02
  | .frameEncode _ _ _ => 0x03
  | .frameDecode _ => 0x04
  | .btInit _ _ _ _ => 0x10
  | .send _ _ _ => 0x11
  | .btShutdown _ _ => 0x12
  | .txAssert => 0x18
  | .txWrite => 0x19
  | .txDrainDone => 0x1A
  | .txRelease => 0x1B
  | .lineByte => 0x1C
  | .ioError => 0x1D
  | .devInit => 0x20
  | .rxByte _ => 0x21
  | .tick => 0x22
  | .pwmStep => 0x23
  | .idleTimeout => 0x28
  | .transfer => 0x29
  | .frame _ _ _ _ => 0x40

/-- R66: the codes of the complete list of events. -/
def eventCodes : List Byte :=
  [0x00, 0x01, 0x02, 0x03, 0x04, 0x10, 0x11, 0x12, 0x18, 0x19, 0x1A, 0x1B, 0x1C, 0x1D, 0x20, 0x21,
    0x22, 0x23, 0x28, 0x29]

/-- R66: the block an event belongs to; the wire frame is no event. -/
def Instr.block : Instr → Option Block
  | .reset block => some block
  | .ckCreate _ => some .hb
  | .ckVerify _ _ => some .hb
  | .frameEncode _ _ _ => some .hb
  | .frameDecode _ => some .hb
  | .btInit _ _ _ _ => some .hb
  | .send _ _ _ => some .hb
  | .btShutdown _ _ => some .hb
  | .txAssert => some .hb
  | .txWrite => some .hb
  | .txDrainDone => some .hb
  | .txRelease => some .hb
  | .lineByte => some .hb
  | .ioError => some .hb
  | .devInit => some .db
  | .rxByte _ => some .db
  | .tick => some .db
  | .pwmStep => some .db
  | .idleTimeout => some .db
  | .transfer => some .db
  | .frame _ _ _ _ => none

/-- R66: the kinds of events. -/
inductive EventKind where
  /-- An operation a caller invokes. -/
  | op
  /-- Caused by something outside the block. -/
  | env
  /-- Taken by the block itself. -/
  | int
  deriving DecidableEq, Repr

/-- R66: the kind of an event; the wire frame is no event. -/
def Instr.kind : Instr → Option EventKind
  | .reset _ => some .env
  | .ckCreate _ => some .op
  | .ckVerify _ _ => some .op
  | .frameEncode _ _ _ => some .op
  | .frameDecode _ => some .op
  | .btInit _ _ _ _ => some .op
  | .send _ _ _ => some .op
  | .btShutdown _ _ => some .op
  | .txAssert => some .int
  | .txWrite => some .int
  | .txDrainDone => some .int
  | .txRelease => some .int
  | .lineByte => some .env
  | .ioError => some .env
  | .devInit => some .op
  | .rxByte _ => some .env
  | .tick => some .env
  | .pwmStep => some .env
  | .idleTimeout => some .int
  | .transfer => some .int
  | .frame _ _ _ _ => none

/-- R189: the agents, each of which may take a step when one of its events is enabled. -/
inductive Agent where
  | caller
  | transmitSequencer
  | hostPlatform
  | deviceUart
  | timer
  | mainLoop
  | resetSource
  deriving DecidableEq, Repr

/-- R189: whose event an event is; the wire frame is nobody's. -/
def Instr.agent : Instr → Option Agent
  | .reset _ => some .resetSource
  | .ckCreate _ => some .caller
  | .ckVerify _ _ => some .caller
  | .frameEncode _ _ _ => some .caller
  | .frameDecode _ => some .caller
  | .btInit _ _ _ _ => some .caller
  | .send _ _ _ => some .caller
  | .btShutdown _ _ => some .caller
  | .txAssert => some .transmitSequencer
  | .txWrite => some .transmitSequencer
  | .txDrainDone => some .transmitSequencer
  | .txRelease => some .transmitSequencer
  | .lineByte => some .hostPlatform
  | .ioError => some .hostPlatform
  | .devInit => some .mainLoop
  | .rxByte _ => some .deviceUart
  | .tick => some .timer
  | .pwmStep => some .mainLoop
  | .idleTimeout => some .timer
  | .transfer => some .mainLoop
  | .frame _ _ _ _ => none

/-! ## Words numbered as spec/opcode_table.json numbers them -/

/-- The `n` low bytes of `w`, least significant first: the byte of bits 7..0 is the record's first. -/
def wordBytes : Nat → Nat → List Byte
  | 0, _ => []
  | n + 1, w => BitVec.ofNat 8 w :: wordBytes n (w / 256)

/-- The bytes of a table word of `nbits` bits, followed by zeros for the operand bytes the table
gives no bits: enough for any one-byte length. -/
def wordRecord (nbits w : Nat) : List Byte :=
  wordBytes ((nbits + 7) / 8) (w % 2 ^ nbits) ++ List.replicate 272 0

/-- What the decoder reads from a table word. -/
def decodeTableWord (nbits w : Nat) : Option Instr :=
  match decode (wordRecord nbits w) with
  | .ok (i, _) => some i
  | .error _ => none

/-- The record of a table word alone: the bytes of `wordRecord` that the decoder takes (all of them
where it takes none). -/
def wordInput (nbits w : Nat) : List Byte :=
  match decode (wordRecord nbits w) with
  | .ok (_, rest) => (wordRecord nbits w).take ((wordRecord nbits w).length - rest.length)
  | .error _ => wordRecord nbits w

end Sys2Proof
end

