-- ==== Sys2Proof/Machine/State.lean ====
section
/-! DEFINITION. The state of the hardware (spec/10_state.md rule R10): the host block, the device
block and the wire between them, as plain data, and its value at reset (rule R29).

Four fields of `State` are the MODEL's own and no register of the spec: `input`, the event records
the environment supplies; `result`, the value the event just taken returns to its caller (an output
of the step; R22: the hardware keeps no "last result" register); `hostDraws` and `deviceDraws`, the
counters the free values of `Sys2Proof/Config.lean` are applied to.  So is the field `raised` of the
device block, which says inside a `TICK` or a `PWM_STEP` which inner step it has raised, and between
steps says that none is pending (R26, R174). -/

namespace Sys2Proof.Machine

/-! ## The values of the small registers -/

/-- R14: the host sequencer. -/
inductive BtState where
  | closed
  | ready
  | txAssert
  | txWrite
  | txDrain
  | txRelease
  deriving DecidableEq, Repr

/-- R15: the receiver sequencer. -/
inductive RxState where
  | idle
  | active
  deriving DecidableEq, Repr

/-- R66: the steps that are raised only from inside another: `IDLE_TIMEOUT` from inside `TICK`,
`TRANSFER` from inside `PWM_STEP`. -/
inductive InnerStep where
  | idleTimeout
  | transfer
  deriving DecidableEq, Repr

/-- R24: legal values of `cfg.parity`. -/
inductive Parity where
  | none
  deriving DecidableEq, Repr

/-- R24: legal values of `cfg.flow`. -/
inductive FlowControl where
  | none
  deriving DecidableEq, Repr

/-- R24: the configuration record of the Bus Handle. -/
structure LineConfig where
  baud : Nat
  dataBits : Nat
  parity : Parity
  stopBits : Nat
  flow : FlowControl
  raw : Bool
  deriving DecidableEq, Repr

/-- R24, R103: the configuration at a given bit rate; the other five settings are fixed. -/
def LineConfig.standard (baud : Nat) : LineConfig :=
  { baud := baud, dataBits := Config.dataBits, parity := .none, stopBits := Config.stopBits,
    flow := .none, raw := true }

/-! ## Results of host operations -/

/-- R170: the error kinds. -/
inductive ErrorKind where
  | validationError
  | transportError
  | configurationError
  | framingError
  | teardownError
  deriving DecidableEq, Repr

/-- R66: the operations of the host block that return a result. -/
inductive HostOp where
  | ckCreate
  | ckVerify
  | encode
  | decode
  | btInit
  | send
  | btShutdown
  deriving DecidableEq, Repr

/-- R66, R73, R170: what an operation returns. -/
inductive ResultValue where
  /-- `Ok`. -/
  | ok
  /-- An error kind of R170. -/
  | error (kind : ErrorKind)
  /-- `CK_CREATE`. -/
  | byte (b : Byte)
  /-- `CK_VERIFY`: 1 for match. -/
  | bit (b : Bool)
  /-- `ENCODE`: the wire image (R90). -/
  | frame (bytes : List Byte)
  /-- `DECODE`: source, destination, payload, in this order (R73). -/
  | decoded (source destination : Byte) (payload : List Byte)
  deriving DecidableEq, Repr

/-- The end of a host operation: which operation ends and what it returns. -/
structure Completion where
  op : HostOp
  value : ResultValue
  deriving DecidableEq, Repr

/-! ## The two blocks and the wire -/

/-- The registers of the host block (R10, R12 to R14, R18, R23, R24). -/
structure HB where
  /-- R14. -/
  btState : BtState
  /-- R14: 0..69. -/
  txIdx : Nat
  /-- R12: 5..69. -/
  txLen : Nat
  /-- R12: `txbuf[0..68]`. -/
  txbuf : Vector Byte 69
  /-- R13: bytes handed to the serial line that have not left it, oldest first. -/
  uartQ : List Byte
  /-- R18: 1 is transmit. -/
  de : Bool
  /-- R23. -/
  lineOpen : Bool
  /-- R23. -/
  dirClaimed : Bool
  /-- R24. -/
  cfg : LineConfig
  deriving DecidableEq, Repr

/-- The registers of the device block (R10, R11, R15 to R17, R19 to R21). -/
structure DB where
  /-- R15. -/
  rxState : RxState
  /-- R15: 0..30. -/
  rxCnt : Nat
  /-- R17. -/
  dataReady : Bool
  /-- R11: the buffer being filled. -/
  staging : Vector Byte 30
  /-- R11: the buffer being shown. -/
  active : Vector Byte 30
  /-- R16: 8 bits. -/
  phase : BitVec 8
  /-- R19: 1 is driven high. -/
  out : Vector Bool 30
  /-- R20. -/
  tmrArmed : Bool
  /-- R20: 0..`T_IDLE`. -/
  tmrCnt : Nat
  /-- R21. -/
  rxIntEn : Bool
  /-- R21. -/
  devInit : Bool
  /-- The MODEL's own: the inner step that has been raised and not yet taken; R26 and R174: none
  between steps. -/
  raised : Option InnerStep
  deriving DecidableEq, Repr

/-- R109: a byte put on the wire, tagged with `DE` at that step. -/
structure WireByte where
  byte : Byte
  de : Bool
  deriving DecidableEq, Repr

/-- The state of the machine. -/
structure State where
  /-- The host block. -/
  hb : HB
  /-- The device block. -/
  db : DB
  /-- R72 `wire(s)`, R109: every byte emitted so far, oldest first. -/
  wire : List WireByte
  /-- R191: bytes that reached the bus and that the device has not taken, oldest first. -/
  bus : List Byte
  /-- The MODEL's own: the event records not yet taken (R67). -/
  input : List Byte
  /-- The MODEL's own: what the event just taken returned. -/
  result : Option Completion
  /-- The MODEL's own: number of draws the host block has made. -/
  hostDraws : Nat
  /-- The MODEL's own: number of draws the device block has made. -/
  deviceDraws : Nat
  deriving DecidableEq, Repr

/-! ## Stops -/

/-- Ways the machine stops with a fault.  Both are accesses outside a register array, which the spec
says cannot be written down in its rules (R40); no reachable state raises either (R28). -/
inductive Fault where
  /-- Raised by `RX_BYTE` in `Active` with `rx_cnt >= 30`.  Safe: the model stops. -/
  | stagingIndexOutOfRange
  /-- Raised by `TX_WRITE` with `tx_idx >= 69`.  Safe: the model stops. -/
  | txbufIndexOutOfRange
  deriving DecidableEq, Repr

/-- Ways a step is refused: R69, R193, "no step".  Every one is safe: the model stops where the spec
gives no step. -/
inductive Refusal where
  /-- Raised by an arm of `exec` whose instruction has no meaning yet.  Safe. -/
  | notModelled (mnemonic : String)
  /-- Raised by `step` when the environment supplies no event.  Safe. -/
  | noEvent
  /-- Raised by `step` when the input begins with no event record (R69).  Safe. -/
  | undecodable (reason : DecodeError)
  /-- Raised by `BT_INIT` outside `Closed` (R102).  Safe. -/
  | btInitNotClosed
  /-- Raised by `SEND` outside `Ready` (R104).  Safe. -/
  | sendNotReady
  /-- Raised by `BT_SHUTDOWN` outside `Ready` (R114).  Safe. -/
  | shutdownNotReady
  /-- Raised by `TX_ASSERT` outside `TxAssert` (R107).  Safe. -/
  | notInTxAssert
  /-- Raised by `TX_WRITE` outside `TxWrite` (R108).  Safe. -/
  | notInTxWrite
  /-- Raised by `TX_DRAIN_DONE` outside `TxDrain` or with bytes in `uart_q` (R110).  Safe. -/
  | notDrained
  /-- Raised by `TX_RELEASE` outside `TxRelease` (R111).  Safe. -/
  | notInTxRelease
  /-- Raised by `LINE_BYTE` with `uart_q` empty (R109).  Safe. -/
  | uartEmpty
  /-- Raised by `IO_ERROR` with no send in progress (R112).  Safe. -/
  | noSendInProgress
  /-- Raised by a second `DEV_INIT` (R204).  Safe. -/
  | alreadyBooted
  /-- Raised by `RX_BYTE` with `rx_int_en = 0` (R131).  Safe. -/
  | rxInterruptDisabled
  /-- Raised by `PWM_STEP` with `dev_init = 0` (R151).  Safe. -/
  | mainLoopNotRunning
  /-- Raised by `IDLE_TIMEOUT` that no `TICK` has raised (R66, R135).  Safe. -/
  | timeoutNotRaised
  /-- Raised by `TRANSFER` that no `PWM_STEP` has raised (R66, R156).  Safe. -/
  | transferNotRaised
  /-- Raised by `FRAME`, whose first byte is no code of R66 (R69).  Safe. -/
  | frameNamesNoEvent
  deriving DecidableEq, Repr

/-! ## Reset values (R29) -/

/-- The host block at reset.  `cfg`, `txbuf`, `tx_len` and `tx_idx` have no reset value in R29; the
values here are DESIGN CHOICE (notes/assumptions/1.md). -/
def HB.atReset : HB where
  btState := .closed
  txIdx := 0
  txLen := 5
  txbuf := Vector.replicate 69 0
  uartQ := []
  de := false
  lineOpen := false
  dirClaimed := false
  cfg := LineConfig.standard Config.baudDefault

/-- The device block at reset.  `staging` and `tmr_cnt` have no reset value in R29; the values here
are DESIGN CHOICE (notes/assumptions/1.md). -/
def DB.atReset : DB where
  rxState := .idle
  rxCnt := 0
  dataReady := false
  staging := Vector.replicate 30 0
  active := Vector.replicate 30 0
  phase := 0
  out := Vector.replicate 30 false
  tmrArmed := false
  tmrCnt := 0
  rxIntEn := false
  devInit := false
  raised := none

/-- The machine right after reset (R29, R200): both blocks reset, nothing on the wire, no event
supplied (notes/assumptions/2.md, notes/assumptions/4.md). -/
def State.reset : State where
  hb := HB.atReset
  db := DB.atReset
  wire := []
  bus := []
  input := []
  result := none
  hostDraws := 0
  deviceDraws := 0

end Sys2Proof.Machine
end

