-- ==== Sys2Proof/Machine/Flags.lean ====
section
/-! DEFINITION. The one-bit conditions the rules compute: the output bits of the PWM comparison
(spec/44_pwm_engine.md R151), the completion of a frame (spec/43_frame_receiver.md R131), drain
(spec/42_bus_transceiver.md R110), the failure of a teardown (R114), and the conditions under which
each event is enabled. -/

namespace Sys2Proof.Machine

/-! ## PWM -/

/-- R151, R153: the staggered count of channel `i`, `(phase + 8*i) mod 256`. -/
def staggeredCount (phase : BitVec 8) (i : Nat) : BitVec 8 :=
  phase + BitVec.ofNat 8 (Config.stagger * i)

/-- R151, R163: `active[i] >u sc`. -/
def pwmLevel (brightness : Byte) (phase : BitVec 8) (i : Nat) : Bool :=
  (staggeredCount phase i).ult brightness

/-- R151: the 30 output bits for one value of `phase`. -/
def pwmOutputs (active : Vector Byte 30) (phase : BitVec 8) : Vector Bool 30 :=
  Vector.ofFn fun i => pwmLevel active[i] phase i.val

/-! ## Host -/

/-- R110, R186: drain is the condition "`uart_q` is empty". -/
def HB.drained (h : HB) : Bool := h.uartQ.isEmpty

/-- R112: a send is in progress. -/
def HB.sending (h : HB) : Bool :=
  h.btState = .txAssert || h.btState = .txWrite || h.btState = .txDrain || h.btState = .txRelease

/-- R114: the error a teardown reports, the first of its failures. -/
def teardownFailure (dirClaimed releaseOk closeOk : Bool) : Option ErrorKind :=
  let err : Option ErrorKind := none
  let err := if dirClaimed && !releaseOk && err.isNone then some .teardownError else err
  if !closeOk && err.isNone then some .teardownError else err

/-! ## Device -/

/-- R131: the counter has reached the fixed frame length. -/
def DB.frameComplete (d : DB) : Bool := d.rxCnt = Config.rxLen

/-- R134: the armed timer has run out. -/
def DB.timerExpired (d : DB) : Bool := d.tmrCnt = 0

/-- R151, R152: asked right after `phase` has been counted, whether it has just wrapped. -/
def DB.phaseWrapped (d : DB) : Bool := d.phase = 0

end Sys2Proof.Machine
end

