-- ==== Sys2Proof/Machine/Operands.lean ====
section
/-! DEFINITION. What the operations compute from their operands: the checksum of a byte sequence
(spec/40_checksum.md R81), the frame built from a source, a destination and a payload
(spec/30_encoding.md R60, spec/41_frame_codec.md R91) and the reading of a candidate frame (R93).

Each is written for an arbitrary checksum and then taken at the hardware's own, so that the test
vectors of spec/95_test_vectors.md can be run on the two instances R87 and R88. -/

namespace Sys2Proof.Machine

/-! ## The checksum -/

/-- R81: the left fold of a step over a byte sequence from a start value. -/
def checksumFold (init : Byte) (step : Byte → Byte → Byte) (bytes : List Byte) : Byte :=
  bytes.foldl step init

/-- `CK` of R81, at the hardware's open parameters. -/
def ck (bytes : List Byte) : Byte := checksumFold Config.ckInit Config.ckStep bytes

/-- One shift of R87: `(c << 1) mod 256`, exclusive-or `0x07` when bit 7 was set. -/
def ckRefShift (c : Byte) : Byte :=
  if c.getLsbD 7 then (c <<< 1) ^^^ 0x07 else c <<< 1

/-- `CK_STEP` of `CK_REF` (R87): the exclusive-or, then eight shifts.  For test vectors only. -/
def ckRefStep (c b : Byte) : Byte :=
  ckRefShift (ckRefShift (ckRefShift (ckRefShift
    (ckRefShift (ckRefShift (ckRefShift (ckRefShift (c ^^^ b))))))))

/-- `CK_REF` (R87).  For test vectors only. -/
def ckRef (bytes : List Byte) : Byte := checksumFold 0x00 ckRefStep bytes

/-- `CK_ALT` (R88).  For test vectors only. -/
def ckAlt (bytes : List Byte) : Byte := checksumFold 0x00 (fun c b => c + b) bytes

/-! ## Building a frame -/

/-- R60, R91: everything of a frame before its checksum; destination before source. -/
def frameBody (source destination : Byte) (payload : List Byte) : List Byte :=
  [Config.preamble, destination, source, BitVec.ofNat 8 payload.length] ++ payload

/-- R60, R65: the frame of a payload of legal length, under a given checksum. -/
def frameWith (cks : List Byte → Byte) (source destination : Byte) (payload : List Byte) :
    List Byte :=
  frameBody source destination payload ++ [cks (frameBody source destination payload)]

/-- The frame under the hardware's checksum. -/
def frameBytes (source destination : Byte) (payload : List Byte) : List Byte :=
  frameWith ck source destination payload

/-- R91: `ENCODE`, under a given checksum. -/
def encodeFrameWith (cks : List Byte → Byte) (source destination : Byte) (payload : List Byte) :
    Except ErrorKind (List Byte) :=
  if payload.length > Config.maxPayload then .error .validationError
  else .ok (frameWith cks source destination payload)

/-- R91: `ENCODE`. -/
def encodeFrame (source destination : Byte) (payload : List Byte) : Except ErrorKind (List Byte) :=
  encodeFrameWith ck source destination payload

/-! ## Reading a candidate frame -/

/-- R93: `DECODE`, under a given checksum; the five tests in the order of the rule, and the triple
source, destination, payload (R73). -/
def decodeFrameWith (cks : List Byte → Byte) (bytes : List Byte) :
    Except ErrorKind (Byte × Byte × List Byte) :=
  if bytes.length < Config.overhead then .error .framingError
  else if bytes.getD 0 0 ≠ Config.preamble then .error .framingError
  else if (bytes.getD 3 0).toNat > Config.maxPayload then .error .framingError
  else if bytes.length ≠ Config.overhead + (bytes.getD 3 0).toNat then .error .framingError
  else if cks (bytes.take (Config.hdrLen + (bytes.getD 3 0).toNat))
      ≠ bytes.getD (Config.hdrLen + (bytes.getD 3 0).toNat) 0 then .error .framingError
  else .ok (bytes.getD 2 0, bytes.getD 1 0,
    (bytes.take (Config.hdrLen + (bytes.getD 3 0).toNat)).drop Config.hdrLen)

/-- R93: `DECODE`. -/
def decodeFrame (bytes : List Byte) : Except ErrorKind (Byte × Byte × List Byte) :=
  decodeFrameWith ck bytes

/-- R106: a buffer with its first bytes replaced by a byte sequence, the rest kept. -/
def overlay (buf : Vector Byte 69) (bytes : List Byte) : Vector Byte 69 :=
  Vector.ofFn fun i => bytes.getD i.val buf[i]

end Sys2Proof.Machine
end

