-- ==== Sys2Proof/Machine/Ops.lean ====
section
/-! DEFINITION. The named operations over the registers, the queues and the wire, that the meanings of
the events are made of; among them the end of a host operation with an error result
(spec/60_exceptions.md R170), which is what the host has in place of an exception, the entry to and
return from an interrupt handler (R177), the timeout and the transfer that are raised inside other
events (R135, R156), and the taking of an event from the environment. -/

namespace Sys2Proof.Machine

/-! ## How a step ends -/

/-- A step that returns nothing. -/
def State.silent (s : State) : State := { s with result := none }

/-- R170, R73: the end of a host operation with a value. -/
def State.complete (s : State) (op : HostOp) (value : ResultValue) : State :=
  { s with result := some ⟨op, value⟩ }

/-- R8 `raise`, R170: the end of a host operation with an error result; the registers keep what was
written to them before. -/
def State.raise (s : State) (op : HostOp) (kind : ErrorKind) : State :=
  s.complete op (.error kind)

/-- R170: the numeric codes of the results. -/
def resultCode : ResultValue → Nat
  | .error .validationError => 1
  | .error .transportError => 2
  | .error .configurationError => 3
  | .error .framingError => 4
  | .error .teardownError => 5
  | .ok | .byte _ | .bit _ | .frame _ | .decoded _ _ _ => 0

/-- R177: entry to an interrupt handler saves nothing and changes nothing the spec gives the
machine; where control goes is fixed (R178). -/
def DB.enterInterrupt (d : DB) : DB := d

/-- R177, R179: the end of a handler is the return; nothing is restored. -/
def DB.returnFromInterrupt (d : DB) : DB := d

/-! ## Host block -/

/-- R18: every write of the direction line; a no-op where the line does not exist. -/
def HB.driveDE (h : HB) (level : Bool) : HB :=
  if Config.halfDuplex then { h with de := level } else h

/-- R106: the frame of an accepted send is put into `txbuf`. -/
def HB.loadFrame (h : HB) (bytes : List Byte) : HB :=
  { h with txbuf := overlay h.txbuf bytes, txLen := bytes.length, txIdx := 0 }

/-- R108: one byte of `txbuf` is appended to `uart_q`. -/
def HB.queueByte (h : HB) (inRange : h.txIdx < 69) : HB :=
  { h with uartQ := h.uartQ ++ [h.txbuf[h.txIdx]], txIdx := h.txIdx + 1 }

/-- R102: the direction output is claimed and driven to receive. -/
def HB.claimDirection (h : HB) : HB :=
  if Config.halfDuplex then ({ h with dirClaimed := true }).driveDE false else h

/-- R114: the direction output is driven to receive and released, if it was held. -/
def HB.releaseDirection (h : HB) : HB :=
  if h.dirClaimed then { h.driveDE false with dirClaimed := false } else h

/-- R29, R200: the host block after a `RESET` event; the registers R29 leaves unspecified take free
values within their ranges. -/
def HB.resetWith (draw : Nat) : HB where
  btState := .closed
  txIdx := Config.drawTxIdx draw % (Config.maxFrame + 1)
  txLen := Config.overhead + Config.drawTxLen draw % (Config.maxPayload + 1)
  txbuf := Config.drawTxbuf draw
  uartQ := []
  de := false
  lineOpen := false
  dirClaimed := false
  cfg := LineConfig.standard (Config.drawBaud draw)

/-! ## The wire -/

/-- R191: the byte reaches the bus exactly when it leaves the UART with `DE = 1`. -/
def busAfter (bus : List Byte) (b : Byte) (de : Bool) : List Byte :=
  if de then bus ++ [b] else bus

/-- R109, R191: a byte is put on the wire, tagged with `DE`. -/
def State.emit (s : State) (b : Byte) : State :=
  { s with wire := s.wire ++ [⟨b, s.hb.de⟩], bus := busAfter s.bus b s.hb.de }

/-- R191: the bus after the device has taken byte `b`.  A byte equal to the oldest undelivered one is
that one; any other byte came from outside the model's host. -/
def busTake (bus : List Byte) (b : Byte) : List Byte :=
  match bus with
  | [] => []
  | x :: rest => if x = b then rest else x :: rest

/-! ## Device block -/

/-- R131: the transition from Idle to Active. -/
def DB.startFrame (d : DB) : DB :=
  { d with rxState := .active, rxCnt := 0, dataReady := false }

/-- R131: the byte is stored at the counter's position and counted. -/
def DB.storeByte (d : DB) (b : Byte) (inRange : d.rxCnt < 30) : DB :=
  { d with staging := d.staging.set d.rxCnt b inRange, rxCnt := d.rxCnt + 1 }

/-- R131, R20: the idle timer is (re)armed. -/
def DB.armTimer (d : DB) : DB := { d with tmrArmed := true, tmrCnt := Config.tIdle }

/-- R131: the transition from Active to Idle on the last byte of a frame. -/
def DB.finishFrame (d : DB) : DB :=
  { d with rxState := .idle, dataReady := true, tmrArmed := false }

/-- R131: the handler of byte-received, statements in the order of the rule; the store outside
`staging`, which no reachable state makes, is a fault. -/
def DB.receive (d : DB) (b : Byte) : Except Fault DB :=
  let d := if d.rxState = .idle then d.startFrame else d
  if inRange : d.rxCnt < 30 then
    let d := (d.storeByte b inRange).armTimer
    .ok (if d.frameComplete then d.finishFrame else d)
  else .error .stagingIndexOutOfRange

/-- R135: the handler of idle-timeout. -/
def DB.timeOut (d : DB) : DB :=
  let d := { d with tmrArmed := false }
  if d.rxState = .active then { d with rxState := .idle } else d

/-- R134, R151: an inner step is raised. -/
def DB.raiseInner (d : DB) (i : InnerStep) : DB := { d with raised := some i }

/-- R174: the inner step raised is taken, and is pending no more. -/
def DB.takeInner (d : DB) : DB := { d with raised := none }

/-- R135, R177: the idle-timeout interrupt that has been raised is taken: its handler runs. -/
def DB.serveTimeout (d : DB) : DB := d.takeInner.enterInterrupt.timeOut.returnFromInterrupt

/-- R134: one period of the idle timer, with the timeout inside it. -/
def DB.countDown (d : DB) : DB :=
  if d.tmrArmed then
    let d := { d with tmrCnt := d.tmrCnt - 1 }
    if d.timerExpired then (d.raiseInner .idleTimeout).serveTimeout else d
  else d

/-- R141: the timeout of the coarser timer, which a model that does not count ticks may take in place
of `TICK` whenever the receiver is Active.  No step of this machine takes it. -/
def DB.coarseTimeout (d : DB) : Option DB :=
  if d.rxState = .active then some d.timeOut else none

/-- R156: byte-reception interrupts are suspended or resumed. -/
def DB.setRxInterrupt (d : DB) (enabled : Bool) : DB := { d with rxIntEn := enabled }

/-- R156: the fixed 30-byte copy. -/
def DB.copyStaging (d : DB) : DB := { d with active := d.staging }

/-- R156: test of the flag, copy and clearing, one atomic action. -/
def DB.transferFrame (d : DB) : DB :=
  if d.dataReady then
    let d := d.setRxInterrupt false
    let d := d.copyStaging
    let d := { d with dataReady := false }
    d.setRxInterrupt true
  else d

/-- R156: the transfer that has been raised is taken. -/
def DB.serveTransfer (d : DB) : DB := d.takeInner.transferFrame

/-- R151: the 30 comparisons with the old `phase`, then the increment. -/
def DB.compareAndCount (d : DB) : DB :=
  { d with out := pwmOutputs d.active d.phase, phase := d.phase + 1 }

/-- R29, R200: the device block after a `RESET` event; the registers R29 leaves unspecified take free
values within their ranges. -/
def DB.resetWith (draw : Nat) : DB where
  rxState := .idle
  rxCnt := 0
  dataReady := false
  staging := Config.drawStaging draw
  active := Vector.replicate 30 0
  phase := 0
  out := Vector.replicate 30 false
  tmrArmed := false
  tmrCnt := Config.drawTmrCnt draw % (Config.tIdle + 1)
  rxIntEn := false
  devInit := false
  raised := none

/-! ## Taking an event -/

/-- R9, R67, R69: the first record of the input, and the state with that record taken. -/
def takeEvent (s : State) : Except Refusal (Instr × State) :=
  if s.input.isEmpty then .error .noEvent
  else
    match decode s.input with
    | .error e => .error (.undecodable e)
    | .ok (i, rest) => .ok (i, { s with input := rest })

/-- The state with the record of a table word as its whole input. -/
def State.withInput (s : State) (bytes : List Byte) : State := { s with input := bytes }

end Sys2Proof.Machine
end

