-- ==== Sys2Proof/Machine/BusTransceiver.lean ====
section
/-! DEFINITION. Meanings of the Bus Transceiver component's operations, internal steps and events
(spec/42_bus_transceiver.md). -/

namespace Sys2Proof.Machine

/-- R102: `BT_INIT`: open, configure, claim.  The rate configured is the operand, whatever it is
(notes/assumptions/21.md).  A failed call leaves the block "exactly as before the call", `cfg` included
(notes/assumptions/7.md). -/
def execBtInit (baud : Nat) (openOk cfgOk : Bool) (claim : Claim) (s : State) :
    Host.Outcome State Fault Refusal :=
  if s.hb.btState = .closed then
    if openOk = false then .next (s.raise .btInit .configurationError)
    else if cfgOk = false then
      .next (({ s with hb := { s.hb with lineOpen := false } }).raise .btInit .configurationError)
    else if Config.halfDuplex = true ∧ claim = .fail then
      .next (({ s with hb := { s.hb with lineOpen := false } }).raise .btInit .configurationError)
    else
      let h := { s.hb with lineOpen := true, cfg := LineConfig.standard baud }
      .next (({ s with hb := { h.claimDirection with btState := .ready } }).complete .btInit .ok)
  else .refused .btInitNotClosed

/-- R104, R105, R106: `SEND`: enabling, validation, acceptance.  An accepted send returns nothing
yet; it ends with `TX_RELEASE` or `IO_ERROR`. -/
def execSend (source destination : Byte) (payload : List Byte) (s : State) :
    Host.Outcome State Fault Refusal :=
  if s.hb.btState = .ready then
    match encodeFrame source destination payload with
    | .error kind => .next (s.raise .send kind)
    | .ok bytes =>
      .next ({ s with hb := { s.hb.loadFrame bytes with btState := .txAssert } }).silent
  else .refused .sendNotReady

/-- R114: `BT_SHUTDOWN`: every release is attempted, the first failure is reported. -/
def execBtShutdown (releaseOk closeOk : Bool) (s : State) : Host.Outcome State Fault Refusal :=
  if s.hb.btState = .ready then
    let h := { s.hb.releaseDirection with lineOpen := false, uartQ := [], btState := .closed }
    match teardownFailure s.hb.dirClaimed releaseOk closeOk with
    | none => .next (({ s with hb := h }).complete .btShutdown .ok)
    | some kind => .next (({ s with hb := h }).raise .btShutdown kind)
  else .refused .shutdownNotReady

/-- R107: `TX_ASSERT`. -/
def execTxAssert (s : State) : Host.Outcome State Fault Refusal :=
  if s.hb.btState = .txAssert then
    .next ({ s with hb := { s.hb.driveDE true with btState := .txWrite } }).silent
  else .refused .notInTxAssert

/-- R108: `TX_WRITE`. -/
def execTxWrite (s : State) : Host.Outcome State Fault Refusal :=
  if s.hb.btState = .txWrite then
    if inRange : s.hb.txIdx < 69 then
      let h := s.hb.queueByte inRange
      let h := if h.txIdx = h.txLen then { h with btState := .txDrain } else h
      .next ({ s with hb := h }).silent
    else .fault .txbufIndexOutOfRange
  else .refused .notInTxWrite

/-- R110: `TX_DRAIN_DONE`. -/
def execTxDrainDone (s : State) : Host.Outcome State Fault Refusal :=
  if s.hb.btState = .txDrain ∧ s.hb.drained = true then
    .next ({ s with hb := { s.hb with btState := .txRelease } }).silent
  else .refused .notDrained

/-- R111: `TX_RELEASE`; the send in progress ends with `Ok`. -/
def execTxRelease (s : State) : Host.Outcome State Fault Refusal :=
  if s.hb.btState = .txRelease then
    .next (({ s with hb := { s.hb.driveDE false with btState := .ready } }).complete .send .ok)
  else .refused .notInTxRelease

/-- R109: `LINE_BYTE`, in any `bt_state`. -/
def execLineByte (s : State) : Host.Outcome State Fault Refusal :=
  match s.hb.uartQ with
  | [] => .refused .uartEmpty
  | b :: rest => .next (({ s with hb := { s.hb with uartQ := rest } }).emit b).silent

/-- R112: `IO_ERROR`: the send in progress ends with `TransportError`; the level of `DE` and whether
the queued bytes stay are free values. -/
def execIoError (s : State) : Host.Outcome State Fault Refusal :=
  if s.hb.sending = true then
    let h := s.hb.driveDE (Config.drawDE s.hostDraws)
    let q := if Config.drawDropQueue s.hostDraws then [] else h.uartQ
    .next (({ s with hb := { h with btState := .ready, uartQ := q }
                     hostDraws := s.hostDraws + 1 }).raise .send .transportError)
  else .refused .noSendInProgress

end Sys2Proof.Machine
end

