-- ==== Sys2Proof/Machine/Checksum.lean ====
section
/-! DEFINITION. Meanings of the Checksum component's operations (spec/40_checksum.md). -/

namespace Sys2Proof.Machine

/-- R85: `CK_CREATE`. -/
def execCkCreate (bytes : List Byte) (s : State) : Host.Outcome State Fault Refusal :=
  .next (s.complete .ckCreate (.byte (ck bytes)))

/-- R86: `CK_VERIFY`; a mismatch is the result 0, not an error. -/
def execCkVerify (bytes : List Byte) (expected : Byte) (s : State) :
    Host.Outcome State Fault Refusal :=
  .next (s.complete .ckVerify (.bit (ck bytes = expected)))

end Sys2Proof.Machine
end

