-- ==== Sys2Proof/Machine/FrameCodec.lean ====
section
/-! DEFINITION. Meanings of the Frame Codec component's operations (spec/41_frame_codec.md) and of a
wire frame that stands where an event record should (spec/30_encoding.md). -/

namespace Sys2Proof.Machine

/-- R91: `ENCODE`. -/
def execFrameEncode (source destination : Byte) (payload : List Byte) (s : State) :
    Host.Outcome State Fault Refusal :=
  match encodeFrame source destination payload with
  | .error kind => .next (s.raise .encode kind)
  | .ok bytes => .next (s.complete .encode (.frame bytes))

/-- R93: `DECODE`. -/
def execFrameDecode (bytes : List Byte) (s : State) : Host.Outcome State Fault Refusal :=
  match decodeFrame bytes with
  | .error kind => .next (s.raise .decode kind)
  | .ok (source, destination, payload) =>
    .next (s.complete .decode (.decoded source destination payload))

/-- R66, R69: `0x40` is no code of the complete list of events; the row `FRAME` is the data format
of `ENCODE`, `DECODE` and `SEND`, "not an operation", so it has no step. -/
def execFrame (_destination _source : Byte) (_payload : List Byte) (_checksum : Byte)
    (_s : State) : Host.Outcome State Fault Refusal :=
  .refused .frameNamesNoEvent

end Sys2Proof.Machine
end

