-- ==== Sys2Proof/Machine/FrameReceiver.lean ====
section
/-! DEFINITION. Meanings of the Frame Receiver component's events (spec/43_frame_receiver.md). -/

namespace Sys2Proof.Machine

/-- R131: `RX_BYTE`, the handler of the byte-received interrupt.  The byte is the oldest undelivered
byte of the bus or comes from outside (R191). -/
def execRxByte (b : Byte) (s : State) : Host.Outcome State Fault Refusal :=
  if s.db.rxIntEn = true then
    match s.db.enterInterrupt.receive b with
    | .error fault => .fault fault
    | .ok d => .next ({ s with db := d.returnFromInterrupt, bus := busTake s.bus b }).silent
  else .refused .rxInterruptDisabled

/-- R134: `TICK`, always enabled. -/
def execTick (s : State) : Host.Outcome State Fault Refusal :=
  .next ({ s with db := s.db.countDown }).silent

/-- R135, R66: `IDLE_TIMEOUT`, enabled when it has been raised, which happens only inside `TICK`
(notes/assumptions/9.md). -/
def execIdleTimeout (s : State) : Host.Outcome State Fault Refusal :=
  if s.db.raised = some .idleTimeout then .next ({ s with db := s.db.serveTimeout }).silent
  else .refused .timeoutNotRaised

end Sys2Proof.Machine
end

