-- ==== Sys2Proof/Machine/PwmEngine.lean ====
section
/-! DEFINITION. Meanings of the PWM Engine component's events (spec/44_pwm_engine.md), and the pins
its outputs are driven onto (R161). -/

namespace Sys2Proof.Machine

/-- R151: `PWM_STEP`, with the transfer inside it when `phase` wraps to 0. -/
def execPwmStep (s : State) : Host.Outcome State Fault Refusal :=
  if s.db.devInit = true then
    let d := s.db.compareAndCount
    let d := if d.phaseWrapped then (d.raiseInner .transfer).serveTransfer else d
    .next ({ s with db := d }).silent
  else .refused .mainLoopNotRunning

/-- R156, R66: `TRANSFER`, enabled when it has been raised, which happens only inside the `PWM_STEP`
that wraps `phase` (notes/assumptions/10.md). -/
def execTransfer (s : State) : Host.Outcome State Fault Refusal :=
  if s.db.raised = some .transfer then .next ({ s with db := s.db.serveTransfer }).silent
  else .refused .transferNotRaised

/-! ## Views of the outputs, read by no rule -/

/-- R161: the level of a pin: the output bit of the channel the pin map puts there; none for a pin of
no channel, which the engine does not drive. -/
def DB.pinLevel (d : DB) (p : Config.Pin) : Option Bool :=
  ((List.finRange 30).find? fun i => Config.pinMap.pin i = p).map fun i => d.out[i]

/-- R7 `OUT_POLARITY`: whether the lamp colour of channel `i` is lit at this moment. -/
def DB.lit (d : DB) (i : Fin 30) : Bool := d.out[i] == Config.outActiveHigh

/-- R7 `CHANMAP`: whether a fixture's colour is lit at this moment. -/
def DB.fixtureLit (d : DB) (fixture : Fin 10) (colour : Fin 3) : Bool :=
  d.lit (Config.chanMap.channel (fixture, colour))

/-- R7 `DE_POLARITY`: whether the direction line is electrically high. -/
def HB.deHigh (h : HB) : Bool := h.de == Config.deActiveHigh

end Sys2Proof.Machine
end

