-- ==== Sys2Proof/Machine/ResetBoot.lean ====
section
/-! DEFINITION. Meanings of the reset and boot events (spec/70_reset_and_hazards.md). -/

namespace Sys2Proof.Machine

/-- R200: `RESET` of one block; the other block and the wire are not touched.  A send in progress is
abandoned with no result. -/
def execReset (block : Block) (s : State) : Host.Outcome State Fault Refusal :=
  match block with
  | .hb =>
    .next ({ s with hb := HB.resetWith s.hostDraws, hostDraws := s.hostDraws + 1 }).silent
  | .db =>
    .next ({ s with db := DB.resetWith s.deviceDraws, deviceDraws := s.deviceDraws + 1 }).silent

/-- R204: `DEV_INIT`.  Bytes that reached the bus before the device has booted are not taken (R204,
R205), so none of them is left to deliver (notes/assumptions/8.md). -/
def execDevInit (s : State) : Host.Outcome State Fault Refusal :=
  if s.db.devInit = false then
    .next ({ s with db := { s.db with devInit := true, rxIntEn := true }, bus := [] }).silent
  else .refused .alreadyBooted

end Sys2Proof.Machine
end

