-- ==== Sys2Proof/Machine/Dispatch.lean ====
section
/-! DEFINITION. One event applied to a state (spec/00_scope.md R9): one arm per constructor of Instr. -/

namespace Sys2Proof.Machine

def exec (i : Instr) (s : State) : Host.Outcome State Fault Refusal :=
  match i with
  | .reset block => Sys2Proof.Machine.execReset block s
  | .ckCreate bytes => Sys2Proof.Machine.execCkCreate bytes s
  | .ckVerify bytes expected => Sys2Proof.Machine.execCkVerify bytes expected s
  | .frameEncode source destination payload => Sys2Proof.Machine.execFrameEncode source destination payload s
  | .frameDecode bytes => Sys2Proof.Machine.execFrameDecode bytes s
  | .btInit baud openOk cfgOk claim => Sys2Proof.Machine.execBtInit baud openOk cfgOk claim s
  | .send source destination payload => Sys2Proof.Machine.execSend source destination payload s
  | .btShutdown releaseOk closeOk => Sys2Proof.Machine.execBtShutdown releaseOk closeOk s
  | .txAssert => Sys2Proof.Machine.execTxAssert s
  | .txWrite => Sys2Proof.Machine.execTxWrite s
  | .txDrainDone => Sys2Proof.Machine.execTxDrainDone s
  | .txRelease => Sys2Proof.Machine.execTxRelease s
  | .lineByte => Sys2Proof.Machine.execLineByte s
  | .ioError => Sys2Proof.Machine.execIoError s
  | .devInit => Sys2Proof.Machine.execDevInit s
  | .rxByte b => Sys2Proof.Machine.execRxByte b s
  | .tick => Sys2Proof.Machine.execTick s
  | .pwmStep => Sys2Proof.Machine.execPwmStep s
  | .idleTimeout => Sys2Proof.Machine.execIdleTimeout s
  | .transfer => Sys2Proof.Machine.execTransfer s
  | .frame destination source payload checksum => Sys2Proof.Machine.execFrame destination source payload checksum s

end Sys2Proof.Machine
end

