-- ==== Sys2Proof/Machine/Step.lean ====
section
/-! DEFINITION. One step of the machine (spec/00_scope.md R9): the next event of the environment's
input is taken and applied to the state. -/

namespace Sys2Proof.Machine

/-- R9: "A step is one event applied to the state by exactly one rule." -/
def step (s : State) : Host.Outcome State Fault Refusal :=
  match takeEvent s with
  | .error reason => .refused reason
  | .ok (i, s') => exec i s'

/-- The state with the record of a table word as its input, so that the next step takes and runs
exactly it.  This stands for the environment supplying the event (notes/assumptions/4.md). -/
def State.withFetchWord (s : State) (nbits w : Nat) : State := s.withInput (wordInput nbits w)

end Sys2Proof.Machine
end

