-- ==== Sys2Proof/Machine/PseudoOps.lean ====
section
/-! DEFINITION. Runs of several events, and the pseudo-operations of spec/30_encoding.md R72. -/

namespace Sys2Proof.Machine

/-- A sequence of events applied one after another, stopping at the first that has no next state. -/
def runEvents : List Instr → State → Host.Outcome State Fault Refusal
  | [], s => .next s
  | i :: is, s =>
    match exec i s with
    | .next t => runEvents is t
    | .fault r => .fault r
    | .refused r => .refused r

/-- R72: `feed(s)`, bytes with no other device event between them. -/
def feed (bytes : List Byte) : List Instr := bytes.map .rxByte

/-- R72: `pause(n)`. -/
def pause (n : Nat) : List Instr := List.replicate n .tick

/-- R72: `steps(n)`. -/
def steps (n : Nat) : List Instr := List.replicate n .pwmStep

/-- R72: `cycle`. -/
def cycle : List Instr := steps 256

/-- R72: `n` times the pair `TX_WRITE`, `LINE_BYTE`. -/
def writePairs : Nat → List Instr
  | 0 => []
  | n + 1 => .txWrite :: .lineByte :: writePairs n

/-- R72: `run_send` for a frame of `len` bytes. -/
def runSend (len : Nat) : List Instr :=
  .txAssert :: (writePairs len ++ [.txDrainDone, .txRelease])

/-- R191: what of the emitted bytes reached the bus: those with `DE = 1`. -/
def onBus (wire : List WireByte) : List Byte := (wire.filter fun w => w.de).map fun w => w.byte

/-- R28 item 5: the bytes of the frame the receiver is collecting or has last collected, as a run of
events delivers them, given those collected before the run. -/
def collected : List Instr → State → List Byte → List Byte
  | [], _, bytes => bytes
  | i :: is, s, bytes =>
    match exec i s with
    | .next t =>
      collected is t (match i with
        | .rxByte b => if s.db.rxState = .idle then [b] else bytes ++ [b]
        | _ => bytes)
    | .fault _ => bytes
    | .refused _ => bytes

/-- R154: at how many of the next `n` `PWM_STEP` events channel `i` is driven high. -/
def highSteps (i : Fin 30) : Nat → State → Nat
  | 0, _ => 0
  | n + 1, s =>
    match exec .pwmStep s with
    | .next t => (if t.db.out[i] then 1 else 0) + highSteps i n t
    | .fault _ => 0
    | .refused _ => 0

end Sys2Proof.Machine
end

