-- ==== Sys2Proof/Safety.lean ====
section
/-! DEFINITION. What holds along every run of the hardware (spec/10_state.md R28, R10, R21, R23), when
an event is enabled (the enabling conditions of R66's rules), and when the machine is quiescent
(spec/70_reset_and_hazards.md R206). -/

namespace Sys2Proof.Machine

/-- R28 items 1 to 4, the ranges of R10, R21, and R26 of the device block. -/
structure DeviceInv (d : DB) : Prop where
  /-- Item 1. -/
  activeCount : d.rxState = .active → 1 ≤ d.rxCnt ∧ d.rxCnt ≤ 29
  /-- Item 2. -/
  readyIdle : d.dataReady = true → d.rxState = .idle ∧ d.rxCnt = 30
  /-- Item 3. -/
  timerActive : d.tmrArmed = true ↔ d.rxState = .active
  /-- Item 3. -/
  timerRunning : d.tmrArmed = true → 1 ≤ d.tmrCnt
  /-- R20. -/
  tmrCntRange : d.tmrCnt ≤ Config.tIdle
  /-- Item 4. -/
  rxCntRange : d.rxCnt ≤ 30
  /-- R21: the interrupt source is enabled exactly when the device has booted. -/
  interruptOn : d.rxIntEn = d.devInit
  /-- R26, R174: nothing is pending between steps. -/
  nothingRaised : d.raised = none

/-- R10, R12, R14, R23, R24 of the host block. -/
structure HostInv (h : HB) : Prop where
  /-- R23. -/
  closedLine : h.btState = .closed ↔ h.lineOpen = false
  /-- R23, R102, R114: the direction output is held exactly while the line is open. -/
  claimHeld : h.dirClaimed = h.lineOpen
  /-- R102, R114: a closed block neither drives the bus nor has bytes to send. -/
  closedQuiet : h.btState = .closed → h.de = false ∧ h.uartQ = []
  /-- R12. -/
  txLenRange : 5 ≤ h.txLen ∧ h.txLen ≤ 69
  /-- R14. -/
  txIdxRange : h.txIdx ≤ 69
  /-- R106. -/
  assertIdx : h.btState = .txAssert → h.txIdx = 0
  /-- R108. -/
  writeIdx : h.btState = .txWrite → h.txIdx < h.txLen
  /-- R108. -/
  drainIdx : h.btState = .txDrain ∨ h.btState = .txRelease → h.txIdx = h.txLen
  /-- R24, R103: the settings but the rate are fixed. -/
  cfgStandard : h.lineOpen = true → ∃ baud, h.cfg = LineConfig.standard baud

/-- R28 item 6: what holds of the host block as long as no send is aborted by an I/O error. -/
structure HostClean (h : HB) : Prop where
  drivesWhileSending : h.de = true ↔
    h.btState = .txWrite ∨ h.btState = .txDrain ∨ h.btState = .txRelease
  queueEmpty : h.btState = .ready ∨ h.btState = .txAssert ∨ h.btState = .txRelease ∨
    h.btState = .closed → h.uartQ = []

/-- Both blocks meet their invariants. -/
structure Sound (s : State) : Prop where
  device : DeviceInv s.db
  host : HostInv s.hb

/-- The enabling condition of each event, from the rule R66 names for it; the wire frame is no event
(R69). -/
def enabled : Instr → State → Prop
  | .reset _, _ => True
  | .ckCreate _, _ => True
  | .ckVerify _ _, _ => True
  | .frameEncode _ _ _, _ => True
  | .frameDecode _, _ => True
  | .btInit _ _ _ _, s => s.hb.btState = .closed
  | .send _ _ _, s => s.hb.btState = .ready
  | .btShutdown _ _, s => s.hb.btState = .ready
  | .txAssert, s => s.hb.btState = .txAssert
  | .txWrite, s => s.hb.btState = .txWrite
  | .txDrainDone, s => s.hb.btState = .txDrain ∧ s.hb.uartQ = []
  | .txRelease, s => s.hb.btState = .txRelease
  | .lineByte, s => s.hb.uartQ ≠ []
  | .ioError, s => s.hb.btState = .txAssert ∨ s.hb.btState = .txWrite ∨ s.hb.btState = .txDrain ∨
      s.hb.btState = .txRelease
  | .devInit, s => s.db.devInit = false
  | .rxByte _, s => s.db.rxIntEn = true
  | .tick, _ => True
  | .pwmStep, s => s.db.devInit = true
  | .idleTimeout, s => s.db.raised = some .idleTimeout
  | .transfer, s => s.db.raised = some .transfer
  | .frame _ _ _ _, _ => False

/-- R206: no byte in flight, no frame in progress, no frame waiting. -/
def Quiescent (s : State) : Prop :=
  s.hb.uartQ = [] ∧ (s.hb.btState = .ready ∨ s.hb.btState = .closed) ∧ s.db.rxState = .idle ∧
    s.db.dataReady = false

end Sys2Proof.Machine
end

