-- ==== Sys2Proof/Certificates/Slice0/Obligations.lean ====
section
/-! DEFINITION. The statements for the provers, file by file of spec/.  A statement whose clauses all
formalise numbered rules in the spec's own words has basis "stated" in OBLIGATIONS.json; one that
rests on an inference the spec marks as its own, or on a choice of this model, has basis "derived",
and its docstring says so. -/

open Sys2Proof Sys2Proof.Machine

/-! ## Checksum (spec/40_checksum.md) -/

/-- R81, R83, R85: `CK_CREATE` returns the left fold of `CK_STEP` from `CK_INIT` and changes nothing
else.  Completion of `CK_CREATE`. -/
def Obligations.CkCreateReturnsFold : Prop :=
  (∀ (bytes : List Byte) (s : State),
    exec (.ckCreate bytes) s = .next { s with result := some ⟨.ckCreate, .byte (ck bytes)⟩ }) ∧
  ck [] = Config.ckInit ∧
  ∀ (bytes : List Byte) (b : Byte), ck (bytes ++ [b]) = Config.ckStep (ck bytes) b

/-- `CK_VERIFY` recomputes and compares, and changes nothing else (R86): 1 on the checksum itself
(which R86 itself infers from R82 and R85), 0 when one bit of the range has been inverted (which rests
on R84 as this model assumes it of the open checksum, notes/assumptions/5.md).  Completion of
`CK_VERIFY`. -/
def Obligations.CkVerifyComparesChecksum : Prop :=
  (∀ (bytes : List Byte) (expected : Byte) (s : State),
    exec (.ckVerify bytes expected) s
      = .next { s with result := some ⟨.ckVerify, .bit (decide (ck bytes = expected))⟩ }) ∧
  (∀ (bytes : List Byte) (s : State),
    exec (.ckVerify bytes (ck bytes)) s
      = .next { s with result := some ⟨.ckVerify, .bit true⟩ }) ∧
  ∀ (bytes : List Byte) (k : Nat) (hk : k < bytes.length) (j : Nat) (s : State), j < 8 →
    exec (.ckVerify (bytes.set k (Byte.flipBit bytes[k] j)) (ck bytes)) s
      = .next { s with result := some ⟨.ckVerify, .bit false⟩ }

/-- R84, the inference from its two named properties: any change confined to one byte changes the
checksum, for every step function that is injective in the data byte and in the running value. -/
def Obligations.OneByteChangeIsDetected : Prop :=
  ∀ (init : Byte) (step : Byte → Byte → Byte),
    (∀ c, Function.Injective (step c)) → (∀ b, Function.Injective fun c => step c b) →
    ∀ (bytes : List Byte) (k : Nat) (hk : k < bytes.length) (b : Byte), b ≠ bytes[k] →
      checksumFold init step (bytes.set k b) ≠ checksumFold init step bytes

/-! ## Frame codec (spec/41_frame_codec.md) -/

/-- R91: `ENCODE` builds preamble, destination, source, length, payload, checksum of all before it,
or answers `ValidationError` above 64 payload bytes; it changes no register.  Completion of
`ENCODE`. -/
def Obligations.EncodeBuildsFrame : Prop :=
  ∀ (source destination : Byte) (payload : List Byte) (s : State),
    (payload.length ≤ 64 →
      exec (.frameEncode source destination payload) s = .next { s with result := some ⟨.encode, .frame
        (0x40 :: destination :: source :: BitVec.ofNat 8 payload.length :: (payload ++
          [ck (0x40 :: destination :: source :: BitVec.ofNat 8 payload.length :: payload)]))⟩ }) ∧
    (64 < payload.length →
      exec (.frameEncode source destination payload) s
        = .next { s with result := some ⟨.encode, .error .validationError⟩ })

/-- R92 (the spec's inference): the length and the fields of an encoded frame, and distinct operands
give distinct frames. -/
def Obligations.EncodedFrameLayout : Prop :=
  (∀ (source destination : Byte) (payload : List Byte), payload.length ≤ 64 →
    (frameBytes source destination payload).length = 5 + payload.length ∧
    (frameBytes source destination payload)[0]? = some 0x40 ∧
    (frameBytes source destination payload)[1]? = some destination ∧
    (frameBytes source destination payload)[2]? = some source ∧
    ((frameBytes source destination payload)[3]?.map BitVec.toNat) = some payload.length ∧
    (∀ k, k < payload.length →
      (frameBytes source destination payload)[4 + k]? = payload[k]?) ∧
    (frameBytes source destination payload)[4 + payload.length]?
      = some (ck ((frameBytes source destination payload).take (4 + payload.length)))) ∧
  ∀ (source destination source' destination' : Byte) (payload payload' : List Byte),
    payload.length ≤ 64 → payload'.length ≤ 64 →
    frameBytes source destination payload = frameBytes source' destination' payload' →
    source = source' ∧ destination = destination' ∧ payload = payload'

/-- R93: `DECODE` accepts exactly the sequences of at least 5 bytes with preamble `0x40`, a length
byte of at most 64, a total length of 5 plus it, and the checksum of everything before the last byte
as the last byte; it returns source, destination, payload, or `FramingError`, and changes no
register.  Completion of `DECODE`. -/
def Obligations.DecodeAcceptsExactlyFrames : Prop :=
  ∀ (bytes : List Byte) (s : State),
    let accepted : Prop := 5 ≤ bytes.length ∧ bytes[0]? = some 0x40 ∧
      (bytes.getD 3 0).toNat ≤ 64 ∧ bytes.length = 5 + (bytes.getD 3 0).toNat ∧
      bytes.getLast? = some (ck bytes.dropLast)
    (accepted → exec (.frameDecode bytes) s = .next { s with result := some ⟨.decode,
      .decoded (bytes.getD 2 0) (bytes.getD 1 0) (bytes.dropLast.drop 4)⟩ }) ∧
    (¬ accepted → exec (.frameDecode bytes) s
      = .next { s with result := some ⟨.decode, .error .framingError⟩ })

/-- R94 (the spec's inference): decoding what `ENCODE` builds gives the operands back, and a decoded
sequence is the one `ENCODE` builds. -/
def Obligations.DecodeInvertsEncode : Prop :=
  (∀ (source destination : Byte) (payload : List Byte) (s : State), payload.length ≤ 64 →
    exec (.frameDecode (frameBytes source destination payload)) s
      = .next { s with result := some ⟨.decode, .decoded source destination payload⟩ }) ∧
  ∀ (bytes : List Byte) (source destination : Byte) (payload : List Byte) (s t : State),
    exec (.frameDecode bytes) s = .next t →
    t.result = some ⟨.decode, .decoded source destination payload⟩ →
    payload.length ≤ 64 ∧ bytes = frameBytes source destination payload

/-- R94 (the spec's inference): inverting any one bit of a valid frame makes `DECODE` answer
`FramingError`. -/
def Obligations.FlippedFrameBitIsRejected : Prop :=
  ∀ (source destination : Byte) (payload : List Byte) (s : State) (k j : Nat)
    (hk : k < (frameBytes source destination payload).length), payload.length ≤ 64 → j < 8 →
    exec (.frameDecode ((frameBytes source destination payload).set k
        (Byte.flipBit (frameBytes source destination payload)[k] j))) s
      = .next { s with result := some ⟨.decode, .error .framingError⟩ }

/-! ## Bus transceiver (spec/42_bus_transceiver.md) -/

/-- R102, R103: a `BT_INIT` whose open, configuration and claim succeed opens the line at the given
rate with 8 data bits, no parity, 1 stop bit, no flow control, raw mode, holds the direction output
and drives it to receive; an already claimed output is no failure.  That a rate of 0, which R24 does
not list as legal, is configured like any other follows R102's pseudocode (notes/assumptions/21.md).
Completion of `BT_INIT`. -/
def Obligations.BtInitOpensLine : Prop :=
  ∀ (baud : Nat) (claim : Claim) (s : State), s.hb.btState = .closed → claim ≠ .fail →
    exec (.btInit baud true true claim) s = .next { s with
      hb := { s.hb with
        lineOpen := true
        cfg := { baud := baud, dataBits := 8, parity := .none, stopBits := 1, flow := .none,
                 raw := true }
        dirClaimed := true
        de := false
        btState := .ready }
      result := some ⟨.btInit, .ok⟩ }

/-- R102, R171: a `BT_INIT` that fails answers `ConfigurationError` and leaves the block exactly as
before the call; outside `Closed` it has no step.  That `cfg` too is as before when only the claim
fails is this model's choice (notes/assumptions/7.md). -/
def Obligations.BtInitFailureLeavesBlockAsBefore : Prop :=
  ∀ (baud : Nat) (openOk cfgOk : Bool) (claim : Claim) (s : State),
    (HostInv s.hb → s.hb.btState = .closed → openOk = false ∨ cfgOk = false ∨ claim = .fail →
      exec (.btInit baud openOk cfgOk claim) s
        = .next { s with result := some ⟨.btInit, .error .configurationError⟩ }) ∧
    (s.hb.btState ≠ .closed →
      exec (.btInit baud openOk cfgOk claim) s = .refused .btInitNotClosed)

/-- R104: `SEND` has a step exactly in `Ready`. -/
def Obligations.SendOnlyWhenReady : Prop :=
  ∀ (source destination : Byte) (payload : List Byte) (s : State),
    (s.hb.btState ≠ .ready → exec (.send source destination payload) s = .refused .sendNotReady) ∧
    (s.hb.btState = .ready → ∃ t, exec (.send source destination payload) s = .next t)

/-- R105: a payload above 64 bytes ends `SEND` at once with `ValidationError` and no change. -/
def Obligations.SendRejectsLongPayload : Prop :=
  ∀ (source destination : Byte) (payload : List Byte) (s : State), s.hb.btState = .ready →
    64 < payload.length →
    exec (.send source destination payload) s
      = .next { s with result := some ⟨.send, .error .validationError⟩ }

/-- R106: an accepted `SEND` puts the encoded frame into the first bytes of `txbuf`, its length into
`tx_len`, 0 into `tx_idx`, and goes to `TxAssert`; nothing else changes and nothing is returned yet.
Completion of `SEND`. -/
def Obligations.SendLoadsFrame : Prop :=
  ∀ (source destination : Byte) (payload : List Byte) (s : State), s.hb.btState = .ready →
    payload.length ≤ 64 →
    ∃ buf : Vector Byte 69,
      exec (.send source destination payload) s = .next { s with
        hb := { s.hb with txbuf := buf, txLen := 5 + payload.length, txIdx := 0,
                          btState := .txAssert }
        result := none } ∧
      ∀ (j : Nat) (hj : j < 69),
        (j < 5 + payload.length → (frameBytes source destination payload)[j]? = some buf[j]) ∧
        (5 + payload.length ≤ j → buf[j] = s.hb.txbuf[j])

/-- R107: `TX_ASSERT` raises `DE` and goes to `TxWrite`; it has a step only in `TxAssert`. -/
def Obligations.TxAssertRaisesDirectionLine : Prop :=
  ∀ s : State,
    (s.hb.btState = .txAssert → exec .txAssert s
      = .next { s with hb := { s.hb with de := true, btState := .txWrite }, result := none }) ∧
    (s.hb.btState ≠ .txAssert → exec .txAssert s = .refused .notInTxAssert)

/-- R108: `TX_WRITE` appends `txbuf[tx_idx]` to `uart_q`, counts it, and goes to `TxDrain` after the
last byte; it has a step only in `TxWrite`. -/
def Obligations.TxWriteQueuesNextByte : Prop :=
  ∀ s : State,
    (∀ h : s.hb.txIdx < 69, s.hb.btState = .txWrite → exec .txWrite s = .next { s with
      hb := { s.hb with
        uartQ := s.hb.uartQ ++ [s.hb.txbuf[s.hb.txIdx]]
        txIdx := s.hb.txIdx + 1
        btState := if s.hb.txIdx + 1 = s.hb.txLen then .txDrain else .txWrite }
      result := none }) ∧
    (s.hb.btState ≠ .txWrite → exec .txWrite s = .refused .notInTxWrite)

/-- R109: `LINE_BYTE` moves the head of `uart_q` to the wire, tagged with `DE`, in any `bt_state`; with
an empty queue it has no step.  (What waits for the device afterwards is `WireCarriesDrivenBytes`.)
Completion of `LINE_BYTE`. -/
def Obligations.LineByteEmitsHeadOfQueue : Prop :=
  ∀ s : State,
    (∀ (b : Byte) (rest : List Byte), s.hb.uartQ = b :: rest → ∃ waiting : List Byte,
      exec .lineByte s = .next { s with
        hb := { s.hb with uartQ := rest }
        wire := s.wire ++ [{ byte := b, de := s.hb.de }]
        bus := waiting
        result := none }) ∧
    (s.hb.uartQ = [] → exec .lineByte s = .refused .uartEmpty)

/-- R110: `TX_DRAIN_DONE` has a step exactly when `bt_state` is `TxDrain` and `uart_q` is empty, and
goes to `TxRelease`; while bytes are queued no event but `IO_ERROR` and a reset of the host block
leaves `TxDrain` or writes `DE`. -/
def Obligations.DrainWaitsForEmptyQueue : Prop :=
  (∀ s : State,
    (s.hb.btState = .txDrain → s.hb.uartQ = [] → exec .txDrainDone s
      = .next { s with hb := { s.hb with btState := .txRelease }, result := none }) ∧
    (s.hb.btState ≠ .txDrain ∨ s.hb.uartQ ≠ [] → exec .txDrainDone s = .refused .notDrained)) ∧
  ∀ (i : Instr) (s t : State), s.hb.btState = .txDrain → s.hb.uartQ ≠ [] → i ≠ .ioError →
    i ≠ .reset .hb → exec i s = .next t → t.hb.btState = .txDrain ∧ t.hb.de = s.hb.de

/-- R111: `TX_RELEASE` lowers `DE`, goes to `Ready` and ends the `SEND` in progress with `Ok`; it has
a step only in `TxRelease`. -/
def Obligations.TxReleaseEndsSendWithOk : Prop :=
  ∀ s : State,
    (s.hb.btState = .txRelease → exec .txRelease s = .next { s with
      hb := { s.hb with de := false, btState := .ready }
      result := some ⟨.send, .ok⟩ }) ∧
    (s.hb.btState ≠ .txRelease → exec .txRelease s = .refused .notInTxRelease)

/-- R112: `IO_ERROR` in a send ends it with `TransportError` in `Ready`, with `DE` at either level and
`uart_q` kept or emptied; everything else is as before (but for the counter of draws, the model's
own).  Without a send in progress it has no step.  Holds for every draw.  Completion of
`IO_ERROR`. -/
def Obligations.IoErrorAbortsSend : Prop :=
  ∀ s : State,
    (s.hb.btState = .txAssert ∨ s.hb.btState = .txWrite ∨ s.hb.btState = .txDrain ∨
        s.hb.btState = .txRelease →
      ∃ (level : Bool) (queue : List Byte) (draws : Nat), (queue = s.hb.uartQ ∨ queue = []) ∧
        exec .ioError s = .next { s with
          hb := { s.hb with btState := .ready, de := level, uartQ := queue }
          result := some ⟨.send, .error .transportError⟩
          hostDraws := draws }) ∧
    (s.hb.btState = .closed ∨ s.hb.btState = .ready → exec .ioError s = .refused .noSendInProgress)

/-- R114: `BT_SHUTDOWN` releases the direction output and the line whatever fails, drops `uart_q`, and
reports `TeardownError` exactly when a release it attempted failed; outside `Ready` it has no
step. -/
def Obligations.BtShutdownReleasesEverything : Prop :=
  ∀ (releaseOk closeOk : Bool) (s : State),
    (s.hb.btState = .ready → exec (.btShutdown releaseOk closeOk) s = .next { s with
      hb := { s.hb with
        de := if s.hb.dirClaimed then false else s.hb.de
        dirClaimed := false
        lineOpen := false
        uartQ := []
        btState := .closed }
      result := some ⟨.btShutdown,
        if (s.hb.dirClaimed = true ∧ releaseOk = false) ∨ closeOk = false
        then .error .teardownError else .ok⟩ }) ∧
    (s.hb.btState ≠ .ready → exec (.btShutdown releaseOk closeOk) s = .refused .shutdownNotReady)

/-- R113 (the spec's inference): a send accepted with `DE = 0` and `uart_q` empty that reaches its
`TX_RELEASE` with no I/O error and no reset of the host has put on the wire exactly its frame, in
order, every byte with `DE = 1`, and ends in `Ready` with `DE = 0`, `uart_q` empty and `Ok`, whatever
other events fell between. -/
def Obligations.SuccessfulSendEmitsExactlyItsFrame : Prop :=
  ∀ (source destination : Byte) (payload : List Byte) (events : List Instr) (s t : State),
    s.hb.btState = .ready → s.hb.de = false → s.hb.uartQ = [] → payload.length ≤ 64 →
    (∀ i ∈ events, i ≠ .txRelease ∧ i ≠ .ioError ∧ i ≠ .reset .hb) →
    runEvents (.send source destination payload :: (events ++ [.txRelease])) s = .next t →
    t.wire = s.wire ++ (frameBytes source destination payload).map (fun b => ⟨b, true⟩) ∧
    t.hb.btState = .ready ∧ t.hb.de = false ∧ t.hb.uartQ = [] ∧ t.result = some ⟨.send, .ok⟩

/-- R72, R113, R206: the schedule `run_send` of an accepted send runs to its end, and from a quiescent
state ends quiescent; only an accepted `SEND` and a received byte make a quiescent state one that is
not. -/
def Obligations.RunSendCompletes : Prop :=
  (∀ (source destination : Byte) (payload : List Byte) (s : State),
    s.hb.btState = .ready → s.hb.uartQ = [] → payload.length ≤ 64 →
    ∃ t, runEvents (.send source destination payload :: runSend (5 + payload.length)) s = .next t ∧
      (Quiescent s → Quiescent t)) ∧
  ∀ (i : Instr) (s t : State), Quiescent s → exec i s = .next t → ¬ Quiescent t →
    (∃ source destination payload, i = .send source destination payload ∧ payload.length ≤ 64) ∨
    ∃ b, i = .rxByte b

/-! ## Frame receiver (spec/43_frame_receiver.md) -/

/-- R131: `RX_BYTE` in Idle stores the byte at index 0 and starts a frame; in Active with 1 to 28 bytes
it stores the next; in Active with 29 it stores the last, returns to Idle, sets the flag and stops the
timer; with the interrupt source disabled it has no step.  (What waits on the wire afterwards is
`WireCarriesDrivenBytes`.)  Completion of `RX_BYTE`. -/
def Obligations.RxByteStoresAndCounts : Prop :=
  ∀ (b : Byte) (s : State),
    (s.db.rxIntEn = true → ∃ waiting : List Byte,
      (s.db.rxState = .idle → exec (.rxByte b) s = .next { s with
        db := { s.db with rxState := .active, rxCnt := 1, dataReady := false,
                          staging := s.db.staging.set 0 b, tmrArmed := true,
                          tmrCnt := Config.tIdle }
        bus := waiting
        result := none }) ∧
      (∀ h : s.db.rxCnt < 29, s.db.rxState = .active → exec (.rxByte b) s = .next { s with
        db := { s.db with rxCnt := s.db.rxCnt + 1, staging := s.db.staging.set s.db.rxCnt b,
                          tmrArmed := true, tmrCnt := Config.tIdle }
        bus := waiting
        result := none }) ∧
      (s.db.rxCnt = 29 → s.db.rxState = .active → exec (.rxByte b) s = .next { s with
        db := { s.db with rxState := .idle, rxCnt := 30, dataReady := true,
                          staging := s.db.staging.set 29 b, tmrArmed := false,
                          tmrCnt := Config.tIdle }
        bus := waiting
        result := none })) ∧
    (s.db.rxIntEn = false → exec (.rxByte b) s = .refused .rxInterruptDisabled)

/-- R134: `TICK` counts an armed timer down, ends the frame in progress without setting the flag
when the count reaches 0, and does nothing when the timer is stopped.  Completion of `TICK`. -/
def Obligations.TickCountsDownAndTimesOut : Prop :=
  ∀ s : State,
    (s.db.tmrArmed = true → 2 ≤ s.db.tmrCnt → exec .tick s = .next { s with
      db := { s.db with tmrCnt := s.db.tmrCnt - 1 }, result := none }) ∧
    (s.db.tmrArmed = true → s.db.tmrCnt = 1 → exec .tick s = .next { s with
      db := { s.db with tmrCnt := 0, tmrArmed := false, rxState := .idle, raised := none }
      result := none }) ∧
    (s.db.tmrArmed = false → exec .tick s = .next { s with result := none })

/-- R135: `IDLE_TIMEOUT`, once raised, stops the timer and returns the receiver to Idle, and writes
nothing else; unraised it has no step; the `TICK` that brings the count to 0 raises it and takes it at
once (R134), and no event leaves it raised (R26).  That the pending step is held in a field is this model's choice
(notes/assumptions/9.md).  R141 (the spec's inference): what a tick does to the receiver is nothing,
or what the timeout of the coarser timer does.  Completion of `IDLE_TIMEOUT`. -/
def Obligations.IdleTimeoutDiscardsSilently : Prop :=
  (∀ s : State,
    (s.db.raised = some .idleTimeout → exec .idleTimeout s = .next { s with
      db := { s.db with tmrArmed := false, rxState := .idle, raised := none }
      result := none }) ∧
    (s.db.raised ≠ some .idleTimeout → exec .idleTimeout s = .refused .timeoutNotRaised) ∧
    (s.db.tmrArmed = true → s.db.tmrCnt = 1 → exec .tick s = exec .idleTimeout { s with
      db := { s.db with tmrCnt := 0, raised := some .idleTimeout } })) ∧
  (∀ (i : Instr) (s t : State), s.db.raised ≠ some .idleTimeout → exec i s = .next t →
    t.db.raised ≠ some .idleTimeout) ∧
  ∀ d : DB, DeviceInv d →
    d.countDown = { d with tmrCnt := d.countDown.tmrCnt } ∨
    d.coarseTimeout = some { d.countDown with tmrCnt := d.tmrCnt }

/-- R133 (the spec's inference): thirty bytes from Idle fill `staging` in order, set the flag at the
last and not before, and leave the output side alone. -/
def Obligations.ThirtyBytesMakeOneFrame : Prop :=
  ∀ (bytes : List Byte) (s : State), s.db.rxIntEn = true → s.db.rxState = .idle →
    bytes.length = 30 →
    (∃ t, runEvents (feed bytes) s = .next t ∧ t.db.staging.toList = bytes ∧
      t.db.rxState = .idle ∧ t.db.rxCnt = 30 ∧ t.db.dataReady = true ∧ t.db.tmrArmed = false ∧
      t.db.active = s.db.active ∧ t.db.phase = s.db.phase ∧ t.db.out = s.db.out ∧ t.hb = s.hb) ∧
    ∀ k, 1 ≤ k → k < 30 →
      ∃ t, runEvents (feed (bytes.take k)) s = .next t ∧ t.db.dataReady = false ∧
        t.db.rxState = .active ∧ t.db.rxCnt = k

/-- R136 (the spec's inference): a partial frame followed by a pause of the idle timeout is discarded,
and the next thirty bytes are framed independently, with the flag clear until the last of them; after
a shorter pause the next bytes complete the old frame, which sets the flag at the thirtieth byte
overall and not before, and the rest of them leave a new partial frame, with the flag clear again. -/
def Obligations.PauseSeparatesFrames : Prop :=
  ∀ (first second : List Byte) (n : Nat) (s : State), s.db.rxIntEn = true →
    s.db.rxState = .idle → 1 ≤ first.length → first.length ≤ 29 → second.length = 30 →
    (Config.tIdle ≤ n →
      (∃ t, runEvents (feed first ++ pause n) s = .next t ∧ t.db.rxState = .idle ∧
        t.db.rxCnt = first.length ∧ t.db.dataReady = false) ∧
      (∀ k, k < 30 → ∃ t, runEvents (feed first ++ pause n ++ feed (second.take k)) s = .next t ∧
        t.db.dataReady = false) ∧
      ∃ t, runEvents (feed first ++ pause n ++ feed second) s = .next t ∧
        t.db.staging.toList = second ∧ t.db.dataReady = true ∧ t.db.rxState = .idle) ∧
    (n < Config.tIdle →
      (∀ k, k < 30 - first.length →
        ∃ t, runEvents (feed first ++ pause n ++ feed (second.take k)) s = .next t ∧
          t.db.rxState = .active ∧ t.db.rxCnt = first.length + k ∧ t.db.dataReady = false) ∧
      (∃ t, runEvents (feed first ++ pause n ++ feed (second.take (30 - first.length))) s = .next t ∧
        t.db.staging.toList = first ++ second.take (30 - first.length) ∧
        t.db.dataReady = true ∧ t.db.rxState = .idle) ∧
      ∃ t, runEvents (feed first ++ pause n ++ feed second) s = .next t ∧
        t.db.rxState = .active ∧ t.db.rxCnt = first.length ∧ t.db.dataReady = false ∧
        t.db.staging.toList.take first.length = second.drop (30 - first.length))

/-- R138, R222 (the spec's inference): a burst of bytes from Idle followed by silence leaves the flag
set exactly when its length is a multiple of 30, and then `staging` holds its last 30 bytes. -/
def Obligations.BurstIsCutIntoThirties : Prop :=
  ∀ (bytes : List Byte) (n : Nat) (s : State), s.db.rxIntEn = true → s.db.rxState = .idle →
    bytes ≠ [] → Config.tIdle ≤ n →
    ∃ t, runEvents (feed bytes ++ pause n) s = .next t ∧ t.db.rxState = .idle ∧
      (t.db.dataReady = true ↔ bytes.length % 30 = 0) ∧
      (bytes.length % 30 = 0 → t.db.staging.toList = bytes.drop (bytes.length - 30))

/-- R210 (the spec's inference): the wire frame of a 30-byte payload does not fit the receiver: its
first 30 bytes, header included, fill `staging`, and the remaining five start a frame that clears the
flag and overwrites the start of `staging`. -/
def Obligations.WireFrameMisfitsReceiver : Prop :=
  ∀ (source destination : Byte) (payload : List Byte) (s : State), s.db.rxIntEn = true →
    s.db.rxState = .idle → payload.length = 30 →
    (∃ t, runEvents (feed ((frameBytes source destination payload).take 30)) s = .next t ∧
      t.db.dataReady = true ∧
      t.db.staging.toList = [0x40, destination, source, 0x1E] ++ payload.take 26) ∧
    ∃ t, runEvents (feed (frameBytes source destination payload)) s = .next t ∧
      t.db.dataReady = false ∧ t.db.rxState = .active ∧ t.db.rxCnt = 5 ∧
      t.db.staging.toList.take 4 = payload.drop 26

/-- R176: a byte and an expiring timeout taken in either order: byte first, the byte is stored behind
the others, the timer is reloaded (or stopped by the last byte of a frame) and no timeout happens for
the old count: the receiver is still Active, unless `T_IDLE` is 1 and the tick runs out the new one;
timeout first, the collected bytes are abandoned and the byte starts a new frame. -/
def Obligations.ByteAndTimeoutInEitherOrder : Prop :=
  ∀ (b : Byte) (s : State) (h : s.db.rxCnt < 30), s.db.rxIntEn = true → s.db.rxState = .active →
    s.db.tmrArmed = true → s.db.tmrCnt = 1 →
    (∃ t, runEvents [.rxByte b, .tick] s = .next t ∧ t.db.rxCnt = s.db.rxCnt + 1 ∧
      t.db.staging = s.db.staging.set s.db.rxCnt b ∧
      (s.db.rxCnt < 29 → t.db.tmrCnt = Config.tIdle - 1 ∧
        (t.db.rxState = .active ↔ 2 ≤ Config.tIdle) ∧ (t.db.tmrArmed = true ↔ 2 ≤ Config.tIdle)) ∧
      (s.db.rxCnt = 29 → t.db.tmrArmed = false ∧ t.db.dataReady = true)) ∧
    ∃ t, runEvents [.tick, .rxByte b] s = .next t ∧ t.db.rxState = .active ∧ t.db.rxCnt = 1 ∧
      t.db.staging = s.db.staging.set 0 b ∧ t.db.tmrArmed = true ∧ t.db.tmrCnt = Config.tIdle

/-! ## PWM engine (spec/44_pwm_engine.md) -/

/-- R151, R156, R163: `PWM_STEP` sets output `i` exactly when `(phase + 8*i) mod 256 < active[i]`, with
the old `phase` and the old `active`; then `phase` counts modulo 256, and when it wraps to 0 a waiting
frame is copied and its flag cleared.  Before `DEV_INIT` it has no step.  Completion of
`PWM_STEP`. -/
def Obligations.PwmStepComparesCountsTransfers : Prop :=
  ∀ s : State,
    (s.db.devInit = true → ∃ levels : Vector Bool 30,
      exec .pwmStep s = .next { s with
        db := { s.db with
          out := levels
          phase := s.db.phase + 1
          active := if s.db.phase = 255 ∧ s.db.dataReady = true then s.db.staging else s.db.active
          dataReady := if s.db.phase = 255 then false else s.db.dataReady
          rxIntEn := if s.db.phase = 255 ∧ s.db.dataReady = true then true else s.db.rxIntEn
          raised := if s.db.phase = 255 then none else s.db.raised }
        result := none } ∧
      ∀ i : Fin 30,
        (levels[i] = true ↔ (s.db.phase.toNat + 8 * i.val) % 256 < (s.db.active[i]).toNat)) ∧
    (s.db.devInit = false → exec .pwmStep s = .refused .mainLoopNotRunning)

/-- R154 (the spec's inference): over one cycle channel `i` is high in exactly as many of the 256 steps
as its brightness says, and the cycle ends at phase 0. -/
def Obligations.DutyIsBrightness : Prop :=
  ∀ (s : State) (i : Fin 30), s.db.devInit = true → s.db.phase = 0 →
    highSteps i 256 s = (s.db.active[i]).toNat ∧
    ∃ t, runEvents cycle s = .next t ∧ t.db.phase = 0

/-- R155 (the spec's inference): with constant brightness `v` from 1 to 255, channel `i` rises at the
phase `256 - 8*i` and falls at the phase `v - 8*i`, modulo 256, and nowhere else. -/
def Obligations.ChannelEdges : Prop :=
  ∀ (v : Byte) (i : Fin 30) (phase : BitVec 8), v ≠ 0 →
    ((pwmLevel v (phase - 1) i.val = false ∧ pwmLevel v phase i.val = true) ↔
      phase = 0 - BitVec.ofNat 8 (8 * i.val)) ∧
    ((pwmLevel v (phase - 1) i.val = true ∧ pwmLevel v phase i.val = false) ↔
      phase = v - BitVec.ofNat 8 (8 * i.val))

/-- R156: `TRANSFER`, once raised, copies all 30 bytes and clears the flag when a frame is waiting, and
does nothing otherwise; unraised it has no step; the `PWM_STEP` that wraps `phase` raises it and takes
it at once, after its comparisons and its count (R151, R152), and no event leaves it raised.  That the
pending step is held in a field is this model's choice (notes/assumptions/10.md).  Completion of
`TRANSFER`. -/
def Obligations.TransferCopiesWaitingFrame : Prop :=
  (∀ s : State,
    (s.db.raised = some .transfer → s.db.dataReady = true → exec .transfer s = .next { s with
      db := { s.db with active := s.db.staging, dataReady := false, rxIntEn := true, raised := none }
      result := none }) ∧
    (s.db.raised = some .transfer → s.db.dataReady = false → exec .transfer s = .next { s with
      db := { s.db with raised := none }
      result := none }) ∧
    (s.db.raised ≠ some .transfer → exec .transfer s = .refused .transferNotRaised) ∧
    (s.db.devInit = true → s.db.phase = 255 → exec .pwmStep s = exec .transfer { s with
      db := { s.db with out := pwmOutputs s.db.active 255, phase := 0, raised := some .transfer } })) ∧
  ∀ (i : Instr) (s t : State), s.db.raised ≠ some .transfer → exec i s = .next t →
    t.db.raised ≠ some .transfer

/-- R157 (the spec's inference): whatever event is taken, `active` stays as it was, or becomes the
whole of `staging` at a cycle boundary with the flag set (which is cleared), or is darkened by a reset
of the device.  (A `TRANSFER` that has been raised, the second way to reach the boundary here, is
pending in no state that a run reaches; that it is held in a field is this model's choice,
notes/assumptions/10.md.) -/
def Obligations.ActiveChangesOnlyAsAWhole : Prop :=
  ∀ (i : Instr) (s t : State), exec i s = .next t →
    t.db.active = s.db.active ∨
    (((i = .pwmStep ∧ s.db.phase = 255) ∨ (i = .transfer ∧ s.db.raised = some .transfer)) ∧
      s.db.dataReady = true ∧ t.db.active = s.db.staging ∧ t.db.dataReady = false) ∨
    (i = .reset .db ∧ t.db.active = Vector.replicate 30 0)

/-- R28 item 5 (the spec's inference): whenever the flag is set, `staging` holds the bytes of one frame
in order, received without a return to Idle between them. -/
def Obligations.WaitingFrameIsOneWholeFrame : Prop :=
  ∀ (events : List Instr) (s t : State), DeviceInv s.db → s.db.rxState = .idle →
    s.db.dataReady = false → runEvents events s = .next t → t.db.dataReady = true →
    t.db.staging.toList = collected events s []

/-- R165, R16 (the spec's inference): no event but `PWM_STEP` and a reset of the device writes `out` or
`phase`. -/
def Obligations.OnlyPwmStepWritesOutputs : Prop :=
  ∀ (i : Instr) (s t : State), exec i s = .next t → i ≠ .pwmStep → i ≠ .reset .db →
    t.db.out = s.db.out ∧ t.db.phase = s.db.phase

/-- R162, R165 (the spec's inference): while all of `active` is 0 and all outputs are low, every event
keeps the outputs low, and `active` at 0 unless it is the transfer of a waiting frame; the first
transfer after a reset of the device comes at the 256th `PWM_STEP` at the earliest, so whatever
events come before it keep the device dark; and from reset and `DEV_INIT` every number of `PWM_STEP`
events alone keeps it dark and is counted by `phase` modulo 256.  (A `TRANSFER` that has been raised
is pending in no state that a run reaches, notes/assumptions/10.md.) -/
def Obligations.DarkUntilFirstTransfer : Prop :=
  (∀ (i : Instr) (s t : State), s.db.active = Vector.replicate 30 0 →
    s.db.out = Vector.replicate 30 false → exec i s = .next t →
    t.db.out = Vector.replicate 30 false ∧
    (t.db.active = Vector.replicate 30 0 ∨
      (s.db.dataReady = true ∧ ((i = .pwmStep ∧ s.db.phase = 255) ∨
        (i = .transfer ∧ s.db.raised = some .transfer))))) ∧
  (∀ (events : List Instr) (s t : State), s.db.active = Vector.replicate 30 0 →
    s.db.out = Vector.replicate 30 false → s.db.phase = 0 → s.db.raised = none →
    events.count .pwmStep < 256 → runEvents events s = .next t →
    t.db.active = Vector.replicate 30 0 ∧ t.db.out = Vector.replicate 30 false) ∧
  ∀ n : Nat, ∃ t, runEvents (.devInit :: steps n) State.reset = .next t ∧
    (∀ i : Fin 30, t.db.out[i] = false) ∧ t.db.phase = BitVec.ofNat 8 n

/-- R161: `PINMAP` being injective, the pin of channel `i` carries `out[i]`, and a pin of no channel is
not driven. -/
def Obligations.PinsCarryTheirChannels : Prop :=
  ∀ d : DB, (∀ i : Fin 30, d.pinLevel (Config.pinMap.pin i) = some d.out[i]) ∧
    ∀ p, (∀ i : Fin 30, Config.pinMap.pin i ≠ p) → d.pinLevel p = none

/-! ## Interrupts, agents, the bus (spec/60_exceptions.md, spec/20_memory.md) -/

/-- R48 (the spec's inference): a byte taken just before or just after a `PWM_STEP` that is not at the
cycle boundary, and a tick just before or just after any `PWM_STEP`, give the same state. -/
def Obligations.HandlersCommuteWithComparisons : Prop :=
  ∀ (s : State), s.db.devInit = true → s.db.rxIntEn = true →
    (∀ b : Byte, s.db.phase ≠ 255 →
      runEvents [.rxByte b, .pwmStep] s = runEvents [.pwmStep, .rxByte b] s) ∧
    runEvents [.tick, .pwmStep] s = runEvents [.pwmStep, .tick] s

/-- R181: what each context of the device may write: the byte-received handler nothing of the output
side, the idle-timeout handler only the receiver's state and timer, and the PWM routine of the
receiver's registers only the flag, which it can only clear.  (`raised`, which says what is pending
inside an event, is the model's own: notes/assumptions/2.md.) -/
def Obligations.ContextsWriteOnlyTheirRegisters : Prop :=
  (∀ (b : Byte) (s t : State), exec (.rxByte b) s = .next t → t.db = { s.db with
    rxState := t.db.rxState, rxCnt := t.db.rxCnt, dataReady := t.db.dataReady,
    staging := t.db.staging, tmrArmed := t.db.tmrArmed, tmrCnt := t.db.tmrCnt }) ∧
  (∀ (s t : State), exec .tick s = .next t → t.db = { s.db with
    rxState := t.db.rxState, tmrArmed := t.db.tmrArmed, tmrCnt := t.db.tmrCnt,
    raised := t.db.raised }) ∧
  ∀ (s t : State), exec .pwmStep s = .next t → t.db = { s.db with
    phase := t.db.phase, out := t.db.out, active := t.db.active, dataReady := t.db.dataReady,
    rxIntEn := t.db.rxIntEn, raised := t.db.raised } ∧ (t.db.dataReady = true → s.db.dataReady = true)

/-- R10: nothing is shared between the blocks: an event of one leaves every register of the other as it
was, and only a host event adds to the wire. -/
def Obligations.BlocksShareNothing : Prop :=
  ∀ (i : Instr) (s t : State), exec i s = .next t →
    (i.block = some .hb → t.db = s.db ∧ t.deviceDraws = s.deviceDraws) ∧
    (i.block = some .db → t.hb = s.hb ∧ t.hostDraws = s.hostDraws ∧ t.wire = s.wire)

/-- R10, R118: what a host event does to the host block and returns depends on the host block alone,
and on the number of draws it has made, a counter of the model's own that a free value is applied to
(notes/assumptions/2.md, for `IO_ERROR` 11.md, for `RESET` 1.md): two states equal in these two, that
differ in anything else, take it alike. -/
def Obligations.HostCannotSeeDevice : Prop :=
  ∀ (i : Instr) (s s' t : State), i.block = some .hb → s.hb = s'.hb →
    s.hostDraws = s'.hostDraws → exec i s = .next t →
    ∃ t', exec i s' = .next t' ∧ t'.hb = t.hb ∧ t'.result = t.result

/-- R191, in the form this model gives the wire (notes/assumptions/8.md): a byte that leaves with
`DE = 1` joins the bytes waiting for the device and one that leaves with `DE = 0` does not; a received
byte is the oldest one waiting, and waits no longer, or came from outside and leaves the waiting ones
alone; `DEV_INIT` finds none waiting; nothing else touches the wire. -/
def Obligations.WireCarriesDrivenBytes : Prop :=
  ∀ (i : Instr) (s t : State), exec i s = .next t →
    (i = .lineByte → ∃ b rest, s.hb.uartQ = b :: rest ∧
      t.wire = s.wire ++ [{ byte := b, de := s.hb.de }] ∧
      t.bus = if s.hb.de then s.bus ++ [b] else s.bus) ∧
    (∀ b, i = .rxByte b → s.bus = b :: t.bus ∨ (t.bus = s.bus ∧ s.bus.head? ≠ some b)) ∧
    (i = .devInit → t.bus = []) ∧
    (i ≠ .lineByte → t.wire = s.wire) ∧
    (i ≠ .lineByte → (∀ b, i ≠ .rxByte b) → i ≠ .devInit → t.bus = s.bus)

/-- R191, R53: the bytes waiting for the device are always the most recent of those emitted with
`DE = 1`, in order: none is altered, duplicated, reordered or overtaken.  Every step keeps this. -/
def Obligations.BusKeepsEmissionOrder : Prop :=
  ∀ s t : State, s.bus <:+ onBus s.wire → Machine.step s = .next t → t.bus <:+ onBus t.wire

/-! ## Reset and boot (spec/70_reset_and_hazards.md, spec/10_state.md) -/

/-- R200: `RESET` puts the registers of its block at the values of R29, and touches neither the other
block nor the wire, its bytes waiting for the device among it.  That the registers R29 leaves
unspecified are within their ranges (R12, R14, R20, and R24 for the settings of `cfg` but the rate)
is this model's choice (notes/assumptions/1.md), and so is the form of the wire
(notes/assumptions/8.md).  Completion of `RESET`. -/
def Obligations.ResetPutsBlockAtResetValues : Prop :=
  (∀ s : State, ∃ t, exec (.reset .hb) s = .next t ∧ t.hb.btState = .closed ∧
    t.hb.lineOpen = false ∧ t.hb.dirClaimed = false ∧ t.hb.de = false ∧ t.hb.uartQ = [] ∧
    5 ≤ t.hb.txLen ∧ t.hb.txLen ≤ 69 ∧ t.hb.txIdx ≤ 69 ∧
    (∃ baud, t.hb.cfg = LineConfig.standard baud) ∧ t.db = s.db ∧ t.wire = s.wire ∧ t.bus = s.bus ∧
    t.input = s.input ∧ t.result = none ∧ t.deviceDraws = s.deviceDraws) ∧
  ∀ s : State, ∃ t, exec (.reset .db) s = .next t ∧ t.db.rxState = .idle ∧ t.db.rxCnt = 0 ∧
    t.db.dataReady = false ∧ t.db.active = Vector.replicate 30 0 ∧ t.db.phase = 0 ∧
    t.db.out = Vector.replicate 30 false ∧ t.db.tmrArmed = false ∧ t.db.rxIntEn = false ∧
    t.db.devInit = false ∧ t.db.raised = none ∧ t.db.tmrCnt ≤ Config.tIdle ∧ t.hb = s.hb ∧
    t.wire = s.wire ∧ t.bus = s.bus ∧
    t.input = s.input ∧ t.result = none ∧ t.hostDraws = s.hostDraws

/-- R29: the machine at reset. -/
def Obligations.ResetStateHasSpecValues : Prop :=
  State.reset.hb.btState = .closed ∧ State.reset.hb.lineOpen = false ∧
  State.reset.hb.dirClaimed = false ∧ State.reset.hb.de = false ∧ State.reset.hb.uartQ = [] ∧
  State.reset.db.rxState = .idle ∧ State.reset.db.rxCnt = 0 ∧ State.reset.db.dataReady = false ∧
  (∀ i : Fin 30, State.reset.db.active[i] = 0) ∧ State.reset.db.phase = 0 ∧
  (∀ i : Fin 30, State.reset.db.out[i] = false) ∧ State.reset.db.tmrArmed = false ∧
  State.reset.db.rxIntEn = false ∧ State.reset.db.devInit = false

/-- R204: `DEV_INIT` sets `dev_init` and `rx_int_en` and changes no other register; a second one has no
step.  (What waits on the wire afterwards is `WireCarriesDrivenBytes`.)  Completion of `DEV_INIT`. -/
def Obligations.DevInitBootsDevice : Prop :=
  ∀ s : State,
    (s.db.devInit = false → ∃ waiting : List Byte, exec .devInit s = .next { s with
      db := { s.db with devInit := true, rxIntEn := true }, bus := waiting, result := none }) ∧
    (s.db.devInit = true → exec .devInit s = .refused .alreadyBooted)

/-- R201 (the spec's inference): after a reset of both blocks, whatever the registers hold to which R29
gives no value, the host takes only `BT_INIT` and the stateless operations, the device only
`DEV_INIT`, and both take `RESET`; a `TICK` is taken and changes no register. -/
def Obligations.AfterResetOnlyBootEvents : Prop :=
  ∀ (i : Instr) (s t : State), s.hb.btState = .closed → s.hb.uartQ = [] → s.db.tmrArmed = false →
    s.db.rxIntEn = false → s.db.devInit = false → s.db.raised = none → exec i s = .next t →
    (∃ block, i = .reset block) ∨
    (∃ baud openOk cfgOk claim, i = .btInit baud openOk cfgOk claim) ∨ i = .devInit ∨
    (((∃ bytes, i = .ckCreate bytes) ∨ (∃ bytes expected, i = .ckVerify bytes expected) ∨
      (∃ source destination payload, i = .frameEncode source destination payload) ∨
      (∃ bytes, i = .frameDecode bytes) ∨ i = .tick) ∧
      t.hb = s.hb ∧ t.db = s.db)

/-! ## Which events have a step (spec/30_encoding.md, spec/60_exceptions.md) -/

/-- R69: a record whose code is not in the table of R66 has no step, nor has the wire frame (R60),
whose first byte is no code of the table; and an event whose enabling condition does not hold has no
step.  That a record stands in a field of the state is this model's choice (notes/assumptions/4.md), and
so is that the enabling condition of `IDLE_TIMEOUT` and of `TRANSFER` is held in the field `raised`,
so that a record of either, which R66 says never occurs alone, is refused (notes/assumptions/9.md and
10.md).  The stop of `FRAME`. -/
def Obligations.UnknownCodesAndDisabledEventsHaveNoStep : Prop :=
  (∀ (s : State) (code : Byte) (rest : List Byte), s.input = code :: rest → code ∉ eventCodes →
    ∃ reason, Machine.step s = .refused reason) ∧
  (∀ (destination source checksum : Byte) (payload : List Byte) (s : State),
    exec (.frame destination source payload checksum) s = .refused .frameNamesNoEvent) ∧
  ∀ (i : Instr) (s : State), ¬ enabled i s → ∃ reason, exec i s = .refused reason

/-- R193 (the spec's inference): in every state that meets the invariants, every event whose enabling
condition holds has a next state.  (That `IDLE_TIMEOUT` and `TRANSFER` are enabled when a field of the
model says that they are raised is this model's choice, notes/assumptions/9.md and 10.md; in such a
state neither is.) -/
def Obligations.EnabledEventsHaveAStep : Prop :=
  ∀ (i : Instr) (s : State), Sound s → enabled i s → ∃ t, exec i s = .next t

/-! ## Invariants of every step (spec/10_state.md R28) -/

/-- R28 items 1 to 4, the ranges of R10 and R21, and R26 (nothing pending between steps): every step
keeps them. -/
def Obligations.StepKeepsDeviceInvariant : Prop :=
  ∀ s t : State, DeviceInv s.db → Machine.step s = .next t → DeviceInv t.db

/-- R12, R14, R23, R24 of the host block: every step keeps them; and `cfg` never changes while the line
is open, and is on an open line what the `BT_INIT` that opened it wrote, its rate the operand of that
call (for the rate 0 see notes/assumptions/21.md). -/
def Obligations.StepKeepsHostInvariant : Prop :=
  (∀ s t : State, HostInv s.hb → Machine.step s = .next t → HostInv t.hb) ∧
  ∀ (i : Instr) (s t : State), HostInv s.hb → exec i s = .next t → t.hb.lineOpen = true →
    (s.hb.lineOpen = true ∧ t.hb.cfg = s.hb.cfg) ∨
    ∃ baud claim, i = .btInit baud true true claim ∧ t.hb.cfg = LineConfig.standard baud

/-- R28 item 6: `DE = 1` exactly from `TX_ASSERT` to `TX_RELEASE`, and `uart_q` empty outside; every
event but `IO_ERROR` keeps it, and a successful `BT_INIT` and a reset of the host establish it,
whatever an `IO_ERROR` before them has left. -/
def Obligations.DirectionLineBracketsSend : Prop :=
  (∀ (i : Instr) (s t : State), i ≠ .ioError → HostInv s.hb → HostClean s.hb →
    exec i s = .next t → HostClean t.hb) ∧
  (∀ (baud : Nat) (openOk cfgOk : Bool) (claim : Claim) (s t : State), HostInv s.hb →
    exec (.btInit baud openOk cfgOk claim) s = .next t → t.result = some ⟨.btInit, .ok⟩ →
    HostClean t.hb) ∧
  ∀ s t : State, exec (.reset .hb) s = .next t → HostClean t.hb

/-- The reset state meets all invariants, and is quiescent (R206). -/
def Obligations.ResetMeetsInvariants : Prop :=
  Sound State.reset ∧ Quiescent State.reset ∧ HostClean State.reset.hb ∧ State.reset.bus <:+ onBus State.reset.wire

/-- R193, R40: no step from a state that meets the invariants faults. -/
def Obligations.SoundStatesNeverFault : Prop :=
  ∀ (s : State) (reason : Fault), Sound s → Machine.step s ≠ .fault reason

/-! ## Records (spec/30_encoding.md R66, R67) -/

/-- Decoding the encoding of any well-formed instruction gives it back, whatever bytes follow.  The
bytes of operands that R67 does not lay out are this model's choice (notes/assumptions/3.md). -/
def Obligations.DecodeOfEncodeIsTheInstruction : Prop :=
  ∀ (i : Instr) (rest : List Byte), i.wf = true → decode (encode i ++ rest) = .ok (i, rest)

/-- What the decoder accepts is well-formed, and is the encoding of the instruction it answers,
followed by the bytes it leaves: each record has one meaning and one spelling.  The bytes of operands
that R67 does not lay out are this model's choice (notes/assumptions/3.md). -/
def Obligations.DecodedBytesAreTheEncoding : Prop :=
  ∀ (bytes rest : List Byte) (i : Instr), decode bytes = .ok (i, rest) →
    i.wf = true ∧ bytes = encode i ++ rest

/-- A step takes the record at the head of the input and applies the event it stands for (R9).  That
the environment's events stand as records in a field of the state is this model's choice
(notes/assumptions/4.md). -/
def Obligations.StepRunsDecodedEvent : Prop :=
  ∀ (s : State) (i : Instr) (rest : List Byte),
    (decode s.input = .ok (i, rest) → Machine.step s = exec i { s with input := rest }) ∧
    (i.wf = true → s.input = encode i ++ rest → Machine.step s = exec i { s with input := rest })

/-- R66, R67: records written out from the table decode to their events. -/
def Obligations.SampleRecordsDecode : Prop :=
  decode [0x11, 0x01, 0x02, 0x01, 0xAA] = .ok (.send 0x01 0x02 [0xAA], []) ∧
  decode [0x18] = .ok (.txAssert, []) ∧
  decode [0x21, 0xA0] = .ok (.rxByte 0xA0, []) ∧
  decode [0x23] = .ok (.pwmStep, []) ∧
  decode [0x20] = .ok (.devInit, []) ∧
  decode [0x40, 0x02, 0x01, 0x01, 0xAA, 0xC5] = .ok (.frame 0x02 0x01 [0xAA] 0xC5, [])
end

