-- ==== Sys2Proof/Laws/Decode.lean ====
section
/-! SUPPORT. Each operand reader undoes its writer, and reads nothing its writer does not write. -/

namespace Sys2Proof

@[simp] theorem takeByte_cons (b : Byte) (rest : List Byte) :
    takeByte (b :: rest) = .ok (b, rest) := rfl

theorem takeBytes_append (bytes rest : List Byte) :
    takeBytes bytes.length (bytes ++ rest) = .ok (bytes, rest) := by
  simp [takeBytes]

@[simp] theorem takeBit_encodeBit (b : Bool) (rest : List Byte) :
    takeBit (encodeBit b :: rest) = .ok (b, rest) := by
  cases b <;> simp [takeBit, encodeBit]

@[simp] theorem takeClaim_encodeClaim (c : Claim) (rest : List Byte) :
    takeClaim (encodeClaim c :: rest) = .ok (c, rest) := by
  cases c <;> simp [takeClaim, encodeClaim]

@[simp] theorem takeBlock_encodeBlock (b : Block) (rest : List Byte) :
    takeBlock (encodeBlock b :: rest) = .ok (b, rest) := by
  cases b <;> simp [takeBlock, encodeBlock]

/-- The number reader undoes the number writer, given enough fuel. -/
theorem takeNat_encodeNatFuel (fuel n : Nat) (rest : List Byte) (h : n ≤ fuel) :
    takeNat (encodeNatFuel fuel n ++ rest) = .ok (n, rest) := by
  induction fuel generalizing n with
  | zero => obtain rfl : n = 0 := by omega
            simp [encodeNatFuel, takeNat]
  | succ fuel ih =>
    unfold encodeNatFuel
    split
    next hn =>
      have : n % 256 = n := by omega
      simp [takeNat, this, hn]
    next hn =>
      have hb : (BitVec.ofNat 8 (128 + n % 128)).toNat = 128 + n % 128 := by
        simp; omega
      have hz : ¬ n / 128 = 0 := by omega
      simp only [List.cons_append, takeNat, hb, ih (n / 128) (by omega), hz, if_false]
      rw [if_neg (by omega)]
      congr 2
      omega

@[simp] theorem takeNat_encodeNat (n : Nat) (rest : List Byte) :
    takeNat (encodeNat n ++ rest) = .ok (n, rest) :=
  takeNat_encodeNatFuel n n rest (Nat.le_refl n)

@[simp] theorem takeSeq_encodeSeq (bytes rest : List Byte) :
    takeSeq (encodeSeq bytes ++ rest) = .ok (bytes, rest) := by
  simp [takeSeq, encodeSeq, List.append_assoc, bind, Except.bind, takeBytes_append]

theorem takePayload_encodePayload (payload rest : List Byte) (h : payload.length ≤ 255) :
    takePayload (encodePayload payload ++ rest) = .ok (payload, rest) := by
  have : payload.length % 256 = payload.length := by omega
  simp [takePayload, encodePayload, bind, Except.bind, this, takeBytes_append]

/-- A number read was written by the number writer. -/
theorem takeNat_ok {bs rest : List Byte} {n : Nat} (h : takeNat bs = .ok (n, rest)) :
    ∀ fuel, n ≤ fuel → bs = encodeNatFuel fuel n ++ rest := by
  induction bs generalizing n rest with
  | nil => simp [takeNat] at h
  | cons b bs ih =>
    unfold takeNat at h
    split at h
    next hb =>
      simp only [Except.ok.injEq, Prod.mk.injEq] at h
      obtain ⟨rfl, rfl⟩ := h
      intro fuel _
      cases fuel <;> simp [encodeNatFuel, hb]
    next hb =>
      cases ht : takeNat bs with
      | error e => simp [ht] at h
      | ok p =>
        obtain ⟨m, r⟩ := p
        simp only [ht] at h
        split at h
        next => cases h
        next hm =>
          simp only [Except.ok.injEq, Prod.mk.injEq] at h
          obtain ⟨rfl, rfl⟩ := h
          intro fuel hf
          have hlt : b.toNat < 256 := b.isLt
          obtain ⟨fuel, rfl⟩ : ∃ f, fuel = f + 1 := ⟨fuel - 1, by omega⟩
          unfold encodeNatFuel
          rw [if_neg (by omega)]
          have hmod : 128 + (b.toNat - 128 + 128 * m) % 128 = b.toNat := by omega
          have hdiv : (b.toNat - 128 + 128 * m) / 128 = m := by omega
          rw [hmod, hdiv, ih ht fuel (by omega)]
          simp

/-- Bytes read are the ones that stand there. -/
theorem takeBytes_ok {n : Nat} {bs taken rest : List Byte}
    (h : takeBytes n bs = .ok (taken, rest)) : bs = taken ++ rest ∧ taken.length = n := by
  unfold takeBytes at h
  split at h
  next hn =>
    simp only [Except.ok.injEq, Prod.mk.injEq] at h
    obtain ⟨rfl, rfl⟩ := h
    simp [hn]
  next => cases h

theorem takeByte_ok {bs rest : List Byte} {b : Byte} (h : takeByte bs = .ok (b, rest)) :
    bs = b :: rest := by
  cases bs with
  | nil => cases h
  | cons x xs => cases h; rfl

theorem takeBit_ok {bs rest : List Byte} {b : Bool} (h : takeBit bs = .ok (b, rest)) :
    bs = encodeBit b :: rest := by
  cases bs with
  | nil => cases h
  | cons x xs =>
    simp only [takeBit] at h
    split at h
    next hx => cases h; subst hx; rfl
    next => split at h
            next hx => cases h; subst hx; rfl
            next => cases h

theorem takeBlock_ok {bs rest : List Byte} {b : Block} (h : takeBlock bs = .ok (b, rest)) :
    bs = encodeBlock b :: rest := by
  cases bs with
  | nil => cases h
  | cons x xs =>
    simp only [takeBlock] at h
    split at h
    next hx => cases h; subst hx; rfl
    next => split at h
            next hx => cases h; subst hx; rfl
            next => cases h

theorem takeClaim_ok {bs rest : List Byte} {c : Claim} (h : takeClaim bs = .ok (c, rest)) :
    bs = encodeClaim c :: rest := by
  cases bs with
  | nil => cases h
  | cons x xs =>
    simp only [takeClaim] at h
    split at h
    next hx => cases h; subst hx; rfl
    next => split at h
            next hx => cases h; subst hx; rfl
            next => split at h
                    next hx => cases h; subst hx; rfl
                    next => cases h

/-- A step of a reader that has succeeded. -/
theorem except_bind_ok {α β : Type} {x : Except DecodeError α} {f : α → Except DecodeError β}
    {b : β} (h : (x >>= f) = .ok b) : ∃ a, x = .ok a ∧ f a = .ok b := by
  cases x with
  | error e => cases h
  | ok a => exact ⟨a, rfl, h⟩

theorem takeSeq_ok {bs bytes rest : List Byte} (h : takeSeq bs = .ok (bytes, rest)) :
    bs = encodeSeq bytes ++ rest := by
  obtain ⟨⟨n, r⟩, h1, h2⟩ := except_bind_ok h
  obtain ⟨rfl, rfl⟩ := takeBytes_ok h2
  simpa [encodeSeq, encodeNat] using takeNat_ok h1 bytes.length (Nat.le_refl _)

theorem takePayload_ok {bs payload rest : List Byte} (h : takePayload bs = .ok (payload, rest)) :
    bs = encodePayload payload ++ rest ∧ payload.length ≤ 255 := by
  obtain ⟨⟨n, r⟩, h1, h2⟩ := except_bind_ok h
  obtain ⟨rfl, hl⟩ := takeBytes_ok h2
  have hn := n.isLt
  rw [takeByte_ok h1]
  refine ⟨?_, by omega⟩
  simp [encodePayload, hl]

end Sys2Proof
end

