-- ==== Sys2Proof/Laws/State.lean ====
section
/-! SUPPORT. What every update of the state does to every field: one lemma a field, so that no later
proof unfolds a record update. -/

namespace Sys2Proof.Machine

/-! ### `State.silent` -/

@[simp] theorem State.silent_hb (s : State) : (s.silent).hb = s.hb := rfl
@[simp] theorem State.silent_db (s : State) : (s.silent).db = s.db := rfl
@[simp] theorem State.silent_wire (s : State) : (s.silent).wire = s.wire := rfl
@[simp] theorem State.silent_bus (s : State) : (s.silent).bus = s.bus := rfl
@[simp] theorem State.silent_input (s : State) : (s.silent).input = s.input := rfl
@[simp] theorem State.silent_result (s : State) : (s.silent).result = none := rfl
@[simp] theorem State.silent_hostDraws (s : State) : (s.silent).hostDraws = s.hostDraws := rfl
@[simp] theorem State.silent_deviceDraws (s : State) : (s.silent).deviceDraws = s.deviceDraws := rfl

/-! ### `State.complete` -/

@[simp] theorem State.complete_hb (s : State) (op : HostOp) (v : ResultValue) :
    (s.complete op v).hb = s.hb := rfl
@[simp] theorem State.complete_db (s : State) (op : HostOp) (v : ResultValue) :
    (s.complete op v).db = s.db := rfl
@[simp] theorem State.complete_wire (s : State) (op : HostOp) (v : ResultValue) :
    (s.complete op v).wire = s.wire := rfl
@[simp] theorem State.complete_bus (s : State) (op : HostOp) (v : ResultValue) :
    (s.complete op v).bus = s.bus := rfl
@[simp] theorem State.complete_input (s : State) (op : HostOp) (v : ResultValue) :
    (s.complete op v).input = s.input := rfl
@[simp] theorem State.complete_result (s : State) (op : HostOp) (v : ResultValue) :
    (s.complete op v).result = some ⟨op, v⟩ := rfl
@[simp] theorem State.complete_hostDraws (s : State) (op : HostOp) (v : ResultValue) :
    (s.complete op v).hostDraws = s.hostDraws := rfl
@[simp] theorem State.complete_deviceDraws (s : State) (op : HostOp) (v : ResultValue) :
    (s.complete op v).deviceDraws = s.deviceDraws := rfl

/-! ### `State.raise` -/

@[simp] theorem State.raise_hb (s : State) (op : HostOp) (k : ErrorKind) :
    (s.raise op k).hb = s.hb := rfl
@[simp] theorem State.raise_db (s : State) (op : HostOp) (k : ErrorKind) :
    (s.raise op k).db = s.db := rfl
@[simp] theorem State.raise_wire (s : State) (op : HostOp) (k : ErrorKind) :
    (s.raise op k).wire = s.wire := rfl
@[simp] theorem State.raise_bus (s : State) (op : HostOp) (k : ErrorKind) :
    (s.raise op k).bus = s.bus := rfl
@[simp] theorem State.raise_input (s : State) (op : HostOp) (k : ErrorKind) :
    (s.raise op k).input = s.input := rfl
@[simp] theorem State.raise_result (s : State) (op : HostOp) (k : ErrorKind) :
    (s.raise op k).result = some ⟨op, .error k⟩ := rfl
@[simp] theorem State.raise_hostDraws (s : State) (op : HostOp) (k : ErrorKind) :
    (s.raise op k).hostDraws = s.hostDraws := rfl
@[simp] theorem State.raise_deviceDraws (s : State) (op : HostOp) (k : ErrorKind) :
    (s.raise op k).deviceDraws = s.deviceDraws := rfl

/-! ### `State.emit` -/

@[simp] theorem State.emit_hb (s : State) (b : Byte) : (s.emit b).hb = s.hb := rfl
@[simp] theorem State.emit_db (s : State) (b : Byte) : (s.emit b).db = s.db := rfl
@[simp] theorem State.emit_wire (s : State) (b : Byte) :
    (s.emit b).wire = s.wire ++ [⟨b, s.hb.de⟩] := rfl
@[simp] theorem State.emit_bus (s : State) (b : Byte) :
    (s.emit b).bus = busAfter s.bus b s.hb.de := rfl
@[simp] theorem State.emit_input (s : State) (b : Byte) : (s.emit b).input = s.input := rfl
@[simp] theorem State.emit_result (s : State) (b : Byte) : (s.emit b).result = s.result := rfl
@[simp] theorem State.emit_hostDraws (s : State) (b : Byte) :
    (s.emit b).hostDraws = s.hostDraws := rfl
@[simp] theorem State.emit_deviceDraws (s : State) (b : Byte) :
    (s.emit b).deviceDraws = s.deviceDraws := rfl

/-! ### `State.withInput` -/

@[simp] theorem State.withInput_hb (s : State) (bytes : List Byte) :
    (s.withInput bytes).hb = s.hb := rfl
@[simp] theorem State.withInput_db (s : State) (bytes : List Byte) :
    (s.withInput bytes).db = s.db := rfl
@[simp] theorem State.withInput_wire (s : State) (bytes : List Byte) :
    (s.withInput bytes).wire = s.wire := rfl
@[simp] theorem State.withInput_bus (s : State) (bytes : List Byte) :
    (s.withInput bytes).bus = s.bus := rfl
@[simp] theorem State.withInput_input (s : State) (bytes : List Byte) :
    (s.withInput bytes).input = bytes := rfl
@[simp] theorem State.withInput_result (s : State) (bytes : List Byte) :
    (s.withInput bytes).result = s.result := rfl
@[simp] theorem State.withInput_hostDraws (s : State) (bytes : List Byte) :
    (s.withInput bytes).hostDraws = s.hostDraws := rfl
@[simp] theorem State.withInput_deviceDraws (s : State) (bytes : List Byte) :
    (s.withInput bytes).deviceDraws = s.deviceDraws := rfl

/-! ### `HB.driveDE` -/

@[simp] theorem HB.driveDE_btState (h : HB) (level : Bool) :
    (h.driveDE level).btState = h.btState := rfl
@[simp] theorem HB.driveDE_txIdx (h : HB) (level : Bool) : (h.driveDE level).txIdx = h.txIdx := rfl
@[simp] theorem HB.driveDE_txLen (h : HB) (level : Bool) : (h.driveDE level).txLen = h.txLen := rfl
@[simp] theorem HB.driveDE_txbuf (h : HB) (level : Bool) : (h.driveDE level).txbuf = h.txbuf := rfl
@[simp] theorem HB.driveDE_uartQ (h : HB) (level : Bool) : (h.driveDE level).uartQ = h.uartQ := rfl
@[simp] theorem HB.driveDE_de (h : HB) (level : Bool) : (h.driveDE level).de = level := rfl
@[simp] theorem HB.driveDE_lineOpen (h : HB) (level : Bool) :
    (h.driveDE level).lineOpen = h.lineOpen := rfl
@[simp] theorem HB.driveDE_dirClaimed (h : HB) (level : Bool) :
    (h.driveDE level).dirClaimed = h.dirClaimed := rfl
@[simp] theorem HB.driveDE_cfg (h : HB) (level : Bool) : (h.driveDE level).cfg = h.cfg := rfl

/-! ### `HB.loadFrame` -/

@[simp] theorem HB.loadFrame_btState (h : HB) (bytes : List Byte) :
    (h.loadFrame bytes).btState = h.btState := rfl
@[simp] theorem HB.loadFrame_txIdx (h : HB) (bytes : List Byte) :
    (h.loadFrame bytes).txIdx = 0 := rfl
@[simp] theorem HB.loadFrame_txLen (h : HB) (bytes : List Byte) :
    (h.loadFrame bytes).txLen = bytes.length := rfl
@[simp] theorem HB.loadFrame_txbuf (h : HB) (bytes : List Byte) :
    (h.loadFrame bytes).txbuf = overlay h.txbuf bytes := rfl
@[simp] theorem HB.loadFrame_uartQ (h : HB) (bytes : List Byte) :
    (h.loadFrame bytes).uartQ = h.uartQ := rfl
@[simp] theorem HB.loadFrame_de (h : HB) (bytes : List Byte) : (h.loadFrame bytes).de = h.de := rfl
@[simp] theorem HB.loadFrame_lineOpen (h : HB) (bytes : List Byte) :
    (h.loadFrame bytes).lineOpen = h.lineOpen := rfl
@[simp] theorem HB.loadFrame_dirClaimed (h : HB) (bytes : List Byte) :
    (h.loadFrame bytes).dirClaimed = h.dirClaimed := rfl
@[simp] theorem HB.loadFrame_cfg (h : HB) (bytes : List Byte) :
    (h.loadFrame bytes).cfg = h.cfg := rfl

/-! ### `HB.queueByte` -/

@[simp] theorem HB.queueByte_btState (h : HB) (r : h.txIdx < 69) :
    (h.queueByte r).btState = h.btState := rfl
@[simp] theorem HB.queueByte_txIdx (h : HB) (r : h.txIdx < 69) :
    (h.queueByte r).txIdx = h.txIdx + 1 := rfl
@[simp] theorem HB.queueByte_txLen (h : HB) (r : h.txIdx < 69) :
    (h.queueByte r).txLen = h.txLen := rfl
@[simp] theorem HB.queueByte_txbuf (h : HB) (r : h.txIdx < 69) :
    (h.queueByte r).txbuf = h.txbuf := rfl
@[simp] theorem HB.queueByte_uartQ (h : HB) (r : h.txIdx < 69) :
    (h.queueByte r).uartQ = h.uartQ ++ [h.txbuf[h.txIdx]] := rfl
@[simp] theorem HB.queueByte_de (h : HB) (r : h.txIdx < 69) : (h.queueByte r).de = h.de := rfl
@[simp] theorem HB.queueByte_lineOpen (h : HB) (r : h.txIdx < 69) :
    (h.queueByte r).lineOpen = h.lineOpen := rfl
@[simp] theorem HB.queueByte_dirClaimed (h : HB) (r : h.txIdx < 69) :
    (h.queueByte r).dirClaimed = h.dirClaimed := rfl
@[simp] theorem HB.queueByte_cfg (h : HB) (r : h.txIdx < 69) : (h.queueByte r).cfg = h.cfg := rfl

/-! ### `HB.claimDirection` -/

@[simp] theorem HB.claimDirection_btState (h : HB) : (h.claimDirection).btState = h.btState := rfl
@[simp] theorem HB.claimDirection_txIdx (h : HB) : (h.claimDirection).txIdx = h.txIdx := rfl
@[simp] theorem HB.claimDirection_txLen (h : HB) : (h.claimDirection).txLen = h.txLen := rfl
@[simp] theorem HB.claimDirection_txbuf (h : HB) : (h.claimDirection).txbuf = h.txbuf := rfl
@[simp] theorem HB.claimDirection_uartQ (h : HB) : (h.claimDirection).uartQ = h.uartQ := rfl
@[simp] theorem HB.claimDirection_de (h : HB) : (h.claimDirection).de = false := rfl
@[simp] theorem HB.claimDirection_lineOpen (h : HB) :
    (h.claimDirection).lineOpen = h.lineOpen := rfl
@[simp] theorem HB.claimDirection_dirClaimed (h : HB) : (h.claimDirection).dirClaimed = true := rfl
@[simp] theorem HB.claimDirection_cfg (h : HB) : (h.claimDirection).cfg = h.cfg := rfl

/-! ### `DB.enterInterrupt` -/

@[simp] theorem DB.enterInterrupt_rxState (d : DB) : (d.enterInterrupt).rxState = d.rxState := rfl
@[simp] theorem DB.enterInterrupt_rxCnt (d : DB) : (d.enterInterrupt).rxCnt = d.rxCnt := rfl
@[simp] theorem DB.enterInterrupt_dataReady (d : DB) :
    (d.enterInterrupt).dataReady = d.dataReady := rfl
@[simp] theorem DB.enterInterrupt_staging (d : DB) : (d.enterInterrupt).staging = d.staging := rfl
@[simp] theorem DB.enterInterrupt_active (d : DB) : (d.enterInterrupt).active = d.active := rfl
@[simp] theorem DB.enterInterrupt_phase (d : DB) : (d.enterInterrupt).phase = d.phase := rfl
@[simp] theorem DB.enterInterrupt_out (d : DB) : (d.enterInterrupt).out = d.out := rfl
@[simp] theorem DB.enterInterrupt_tmrArmed (d : DB) :
    (d.enterInterrupt).tmrArmed = d.tmrArmed := rfl
@[simp] theorem DB.enterInterrupt_tmrCnt (d : DB) : (d.enterInterrupt).tmrCnt = d.tmrCnt := rfl
@[simp] theorem DB.enterInterrupt_rxIntEn (d : DB) : (d.enterInterrupt).rxIntEn = d.rxIntEn := rfl
@[simp] theorem DB.enterInterrupt_devInit (d : DB) : (d.enterInterrupt).devInit = d.devInit := rfl
@[simp] theorem DB.enterInterrupt_raised (d : DB) : (d.enterInterrupt).raised = d.raised := rfl

/-! ### `DB.returnFromInterrupt` -/

@[simp] theorem DB.returnFromInterrupt_rxState (d : DB) :
    (d.returnFromInterrupt).rxState = d.rxState := rfl
@[simp] theorem DB.returnFromInterrupt_rxCnt (d : DB) :
    (d.returnFromInterrupt).rxCnt = d.rxCnt := rfl
@[simp] theorem DB.returnFromInterrupt_dataReady (d : DB) :
    (d.returnFromInterrupt).dataReady = d.dataReady := rfl
@[simp] theorem DB.returnFromInterrupt_staging (d : DB) :
    (d.returnFromInterrupt).staging = d.staging := rfl
@[simp] theorem DB.returnFromInterrupt_active (d : DB) :
    (d.returnFromInterrupt).active = d.active := rfl
@[simp] theorem DB.returnFromInterrupt_phase (d : DB) :
    (d.returnFromInterrupt).phase = d.phase := rfl
@[simp] theorem DB.returnFromInterrupt_out (d : DB) : (d.returnFromInterrupt).out = d.out := rfl
@[simp] theorem DB.returnFromInterrupt_tmrArmed (d : DB) :
    (d.returnFromInterrupt).tmrArmed = d.tmrArmed := rfl
@[simp] theorem DB.returnFromInterrupt_tmrCnt (d : DB) :
    (d.returnFromInterrupt).tmrCnt = d.tmrCnt := rfl
@[simp] theorem DB.returnFromInterrupt_rxIntEn (d : DB) :
    (d.returnFromInterrupt).rxIntEn = d.rxIntEn := rfl
@[simp] theorem DB.returnFromInterrupt_devInit (d : DB) :
    (d.returnFromInterrupt).devInit = d.devInit := rfl
@[simp] theorem DB.returnFromInterrupt_raised (d : DB) :
    (d.returnFromInterrupt).raised = d.raised := rfl

/-! ### `DB.startFrame` -/

@[simp] theorem DB.startFrame_rxState (d : DB) : (d.startFrame).rxState = .active := rfl
@[simp] theorem DB.startFrame_rxCnt (d : DB) : (d.startFrame).rxCnt = 0 := rfl
@[simp] theorem DB.startFrame_dataReady (d : DB) : (d.startFrame).dataReady = false := rfl
@[simp] theorem DB.startFrame_staging (d : DB) : (d.startFrame).staging = d.staging := rfl
@[simp] theorem DB.startFrame_active (d : DB) : (d.startFrame).active = d.active := rfl
@[simp] theorem DB.startFrame_phase (d : DB) : (d.startFrame).phase = d.phase := rfl
@[simp] theorem DB.startFrame_out (d : DB) : (d.startFrame).out = d.out := rfl
@[simp] theorem DB.startFrame_tmrArmed (d : DB) : (d.startFrame).tmrArmed = d.tmrArmed := rfl
@[simp] theorem DB.startFrame_tmrCnt (d : DB) : (d.startFrame).tmrCnt = d.tmrCnt := rfl
@[simp] theorem DB.startFrame_rxIntEn (d : DB) : (d.startFrame).rxIntEn = d.rxIntEn := rfl
@[simp] theorem DB.startFrame_devInit (d : DB) : (d.startFrame).devInit = d.devInit := rfl
@[simp] theorem DB.startFrame_raised (d : DB) : (d.startFrame).raised = d.raised := rfl

/-! ### `DB.storeByte` -/

@[simp] theorem DB.storeByte_rxState (d : DB) (b : Byte) (r : d.rxCnt < 30) :
    (d.storeByte b r).rxState = d.rxState := rfl
@[simp] theorem DB.storeByte_rxCnt (d : DB) (b : Byte) (r : d.rxCnt < 30) :
    (d.storeByte b r).rxCnt = d.rxCnt + 1 := rfl
@[simp] theorem DB.storeByte_dataReady (d : DB) (b : Byte) (r : d.rxCnt < 30) :
    (d.storeByte b r).dataReady = d.dataReady := rfl
@[simp] theorem DB.storeByte_staging (d : DB) (b : Byte) (r : d.rxCnt < 30) :
    (d.storeByte b r).staging = d.staging.set d.rxCnt b r := rfl
@[simp] theorem DB.storeByte_active (d : DB) (b : Byte) (r : d.rxCnt < 30) :
    (d.storeByte b r).active = d.active := rfl
@[simp] theorem DB.storeByte_phase (d : DB) (b : Byte) (r : d.rxCnt < 30) :
    (d.storeByte b r).phase = d.phase := rfl
@[simp] theorem DB.storeByte_out (d : DB) (b : Byte) (r : d.rxCnt < 30) :
    (d.storeByte b r).out = d.out := rfl
@[simp] theorem DB.storeByte_tmrArmed (d : DB) (b : Byte) (r : d.rxCnt < 30) :
    (d.storeByte b r).tmrArmed = d.tmrArmed := rfl
@[simp] theorem DB.storeByte_tmrCnt (d : DB) (b : Byte) (r : d.rxCnt < 30) :
    (d.storeByte b r).tmrCnt = d.tmrCnt := rfl
@[simp] theorem DB.storeByte_rxIntEn (d : DB) (b : Byte) (r : d.rxCnt < 30) :
    (d.storeByte b r).rxIntEn = d.rxIntEn := rfl
@[simp] theorem DB.storeByte_devInit (d : DB) (b : Byte) (r : d.rxCnt < 30) :
    (d.storeByte b r).devInit = d.devInit := rfl
@[simp] theorem DB.storeByte_raised (d : DB) (b : Byte) (r : d.rxCnt < 30) :
    (d.storeByte b r).raised = d.raised := rfl

/-! ### `DB.armTimer` -/

@[simp] theorem DB.armTimer_rxState (d : DB) : (d.armTimer).rxState = d.rxState := rfl
@[simp] theorem DB.armTimer_rxCnt (d : DB) : (d.armTimer).rxCnt = d.rxCnt := rfl
@[simp] theorem DB.armTimer_dataReady (d : DB) : (d.armTimer).dataReady = d.dataReady := rfl
@[simp] theorem DB.armTimer_staging (d : DB) : (d.armTimer).staging = d.staging := rfl
@[simp] theorem DB.armTimer_active (d : DB) : (d.armTimer).active = d.active := rfl
@[simp] theorem DB.armTimer_phase (d : DB) : (d.armTimer).phase = d.phase := rfl
@[simp] theorem DB.armTimer_out (d : DB) : (d.armTimer).out = d.out := rfl
@[simp] theorem DB.armTimer_tmrArmed (d : DB) : (d.armTimer).tmrArmed = true := rfl
@[simp] theorem DB.armTimer_tmrCnt (d : DB) : (d.armTimer).tmrCnt = Config.tIdle := rfl
@[simp] theorem DB.armTimer_rxIntEn (d : DB) : (d.armTimer).rxIntEn = d.rxIntEn := rfl
@[simp] theorem DB.armTimer_devInit (d : DB) : (d.armTimer).devInit = d.devInit := rfl
@[simp] theorem DB.armTimer_raised (d : DB) : (d.armTimer).raised = d.raised := rfl

/-! ### `DB.finishFrame` -/

@[simp] theorem DB.finishFrame_rxState (d : DB) : (d.finishFrame).rxState = .idle := rfl
@[simp] theorem DB.finishFrame_rxCnt (d : DB) : (d.finishFrame).rxCnt = d.rxCnt := rfl
@[simp] theorem DB.finishFrame_dataReady (d : DB) : (d.finishFrame).dataReady = true := rfl
@[simp] theorem DB.finishFrame_staging (d : DB) : (d.finishFrame).staging = d.staging := rfl
@[simp] theorem DB.finishFrame_active (d : DB) : (d.finishFrame).active = d.active := rfl
@[simp] theorem DB.finishFrame_phase (d : DB) : (d.finishFrame).phase = d.phase := rfl
@[simp] theorem DB.finishFrame_out (d : DB) : (d.finishFrame).out = d.out := rfl
@[simp] theorem DB.finishFrame_tmrArmed (d : DB) : (d.finishFrame).tmrArmed = false := rfl
@[simp] theorem DB.finishFrame_tmrCnt (d : DB) : (d.finishFrame).tmrCnt = d.tmrCnt := rfl
@[simp] theorem DB.finishFrame_rxIntEn (d : DB) : (d.finishFrame).rxIntEn = d.rxIntEn := rfl
@[simp] theorem DB.finishFrame_devInit (d : DB) : (d.finishFrame).devInit = d.devInit := rfl
@[simp] theorem DB.finishFrame_raised (d : DB) : (d.finishFrame).raised = d.raised := rfl

/-! ### `DB.setRxInterrupt` -/

@[simp] theorem DB.setRxInterrupt_rxState (d : DB) (e : Bool) :
    (d.setRxInterrupt e).rxState = d.rxState := rfl
@[simp] theorem DB.setRxInterrupt_rxCnt (d : DB) (e : Bool) :
    (d.setRxInterrupt e).rxCnt = d.rxCnt := rfl
@[simp] theorem DB.setRxInterrupt_dataReady (d : DB) (e : Bool) :
    (d.setRxInterrupt e).dataReady = d.dataReady := rfl
@[simp] theorem DB.setRxInterrupt_staging (d : DB) (e : Bool) :
    (d.setRxInterrupt e).staging = d.staging := rfl
@[simp] theorem DB.setRxInterrupt_active (d : DB) (e : Bool) :
    (d.setRxInterrupt e).active = d.active := rfl
@[simp] theorem DB.setRxInterrupt_phase (d : DB) (e : Bool) :
    (d.setRxInterrupt e).phase = d.phase := rfl
@[simp] theorem DB.setRxInterrupt_out (d : DB) (e : Bool) : (d.setRxInterrupt e).out = d.out := rfl
@[simp] theorem DB.setRxInterrupt_tmrArmed (d : DB) (e : Bool) :
    (d.setRxInterrupt e).tmrArmed = d.tmrArmed := rfl
@[simp] theorem DB.setRxInterrupt_tmrCnt (d : DB) (e : Bool) :
    (d.setRxInterrupt e).tmrCnt = d.tmrCnt := rfl
@[simp] theorem DB.setRxInterrupt_rxIntEn (d : DB) (e : Bool) :
    (d.setRxInterrupt e).rxIntEn = e := rfl
@[simp] theorem DB.setRxInterrupt_devInit (d : DB) (e : Bool) :
    (d.setRxInterrupt e).devInit = d.devInit := rfl
@[simp] theorem DB.setRxInterrupt_raised (d : DB) (e : Bool) :
    (d.setRxInterrupt e).raised = d.raised := rfl

/-! ### `DB.copyStaging` -/

@[simp] theorem DB.copyStaging_rxState (d : DB) : (d.copyStaging).rxState = d.rxState := rfl
@[simp] theorem DB.copyStaging_rxCnt (d : DB) : (d.copyStaging).rxCnt = d.rxCnt := rfl
@[simp] theorem DB.copyStaging_dataReady (d : DB) : (d.copyStaging).dataReady = d.dataReady := rfl
@[simp] theorem DB.copyStaging_staging (d : DB) : (d.copyStaging).staging = d.staging := rfl
@[simp] theorem DB.copyStaging_active (d : DB) : (d.copyStaging).active = d.staging := rfl
@[simp] theorem DB.copyStaging_phase (d : DB) : (d.copyStaging).phase = d.phase := rfl
@[simp] theorem DB.copyStaging_out (d : DB) : (d.copyStaging).out = d.out := rfl
@[simp] theorem DB.copyStaging_tmrArmed (d : DB) : (d.copyStaging).tmrArmed = d.tmrArmed := rfl
@[simp] theorem DB.copyStaging_tmrCnt (d : DB) : (d.copyStaging).tmrCnt = d.tmrCnt := rfl
@[simp] theorem DB.copyStaging_rxIntEn (d : DB) : (d.copyStaging).rxIntEn = d.rxIntEn := rfl
@[simp] theorem DB.copyStaging_devInit (d : DB) : (d.copyStaging).devInit = d.devInit := rfl
@[simp] theorem DB.copyStaging_raised (d : DB) : (d.copyStaging).raised = d.raised := rfl

/-! ### `DB.compareAndCount` -/

@[simp] theorem DB.compareAndCount_rxState (d : DB) : (d.compareAndCount).rxState = d.rxState := rfl
@[simp] theorem DB.compareAndCount_rxCnt (d : DB) : (d.compareAndCount).rxCnt = d.rxCnt := rfl
@[simp] theorem DB.compareAndCount_dataReady (d : DB) :
    (d.compareAndCount).dataReady = d.dataReady := rfl
@[simp] theorem DB.compareAndCount_staging (d : DB) : (d.compareAndCount).staging = d.staging := rfl
@[simp] theorem DB.compareAndCount_active (d : DB) : (d.compareAndCount).active = d.active := rfl
@[simp] theorem DB.compareAndCount_phase (d : DB) : (d.compareAndCount).phase = d.phase + 1 := rfl
@[simp] theorem DB.compareAndCount_out (d : DB) :
    (d.compareAndCount).out = pwmOutputs d.active d.phase := rfl
@[simp] theorem DB.compareAndCount_tmrArmed (d : DB) :
    (d.compareAndCount).tmrArmed = d.tmrArmed := rfl
@[simp] theorem DB.compareAndCount_tmrCnt (d : DB) : (d.compareAndCount).tmrCnt = d.tmrCnt := rfl
@[simp] theorem DB.compareAndCount_rxIntEn (d : DB) : (d.compareAndCount).rxIntEn = d.rxIntEn := rfl
@[simp] theorem DB.compareAndCount_devInit (d : DB) : (d.compareAndCount).devInit = d.devInit := rfl
@[simp] theorem DB.compareAndCount_raised (d : DB) : (d.compareAndCount).raised = d.raised := rfl

/-! ### `DB.raiseInner` -/

@[simp] theorem DB.raiseInner_rxState (d : DB) (i : InnerStep) :
    (d.raiseInner i).rxState = d.rxState := rfl
@[simp] theorem DB.raiseInner_rxCnt (d : DB) (i : InnerStep) :
    (d.raiseInner i).rxCnt = d.rxCnt := rfl
@[simp] theorem DB.raiseInner_dataReady (d : DB) (i : InnerStep) :
    (d.raiseInner i).dataReady = d.dataReady := rfl
@[simp] theorem DB.raiseInner_staging (d : DB) (i : InnerStep) :
    (d.raiseInner i).staging = d.staging := rfl
@[simp] theorem DB.raiseInner_active (d : DB) (i : InnerStep) :
    (d.raiseInner i).active = d.active := rfl
@[simp] theorem DB.raiseInner_phase (d : DB) (i : InnerStep) :
    (d.raiseInner i).phase = d.phase := rfl
@[simp] theorem DB.raiseInner_out (d : DB) (i : InnerStep) : (d.raiseInner i).out = d.out := rfl
@[simp] theorem DB.raiseInner_tmrArmed (d : DB) (i : InnerStep) :
    (d.raiseInner i).tmrArmed = d.tmrArmed := rfl
@[simp] theorem DB.raiseInner_tmrCnt (d : DB) (i : InnerStep) :
    (d.raiseInner i).tmrCnt = d.tmrCnt := rfl
@[simp] theorem DB.raiseInner_rxIntEn (d : DB) (i : InnerStep) :
    (d.raiseInner i).rxIntEn = d.rxIntEn := rfl
@[simp] theorem DB.raiseInner_devInit (d : DB) (i : InnerStep) :
    (d.raiseInner i).devInit = d.devInit := rfl
@[simp] theorem DB.raiseInner_raised (d : DB) (i : InnerStep) :
    (d.raiseInner i).raised = some i := rfl

/-! ### `DB.takeInner` -/

@[simp] theorem DB.takeInner_rxState (d : DB) : (d.takeInner).rxState = d.rxState := rfl
@[simp] theorem DB.takeInner_rxCnt (d : DB) : (d.takeInner).rxCnt = d.rxCnt := rfl
@[simp] theorem DB.takeInner_dataReady (d : DB) : (d.takeInner).dataReady = d.dataReady := rfl
@[simp] theorem DB.takeInner_staging (d : DB) : (d.takeInner).staging = d.staging := rfl
@[simp] theorem DB.takeInner_active (d : DB) : (d.takeInner).active = d.active := rfl
@[simp] theorem DB.takeInner_phase (d : DB) : (d.takeInner).phase = d.phase := rfl
@[simp] theorem DB.takeInner_out (d : DB) : (d.takeInner).out = d.out := rfl
@[simp] theorem DB.takeInner_tmrArmed (d : DB) : (d.takeInner).tmrArmed = d.tmrArmed := rfl
@[simp] theorem DB.takeInner_tmrCnt (d : DB) : (d.takeInner).tmrCnt = d.tmrCnt := rfl
@[simp] theorem DB.takeInner_rxIntEn (d : DB) : (d.takeInner).rxIntEn = d.rxIntEn := rfl
@[simp] theorem DB.takeInner_devInit (d : DB) : (d.takeInner).devInit = d.devInit := rfl
@[simp] theorem DB.takeInner_raised (d : DB) : (d.takeInner).raised = none := rfl

end Sys2Proof.Machine
end

