-- ==== Sys2Proof/Laws/Ops.lean ====
section
/-! SUPPORT. For each shared operation, what it can do, said once: provers cite these instead of
unfolding the operations. -/

namespace Sys2Proof.Machine

@[simp] theorem enterInterrupt_eq (d : DB) : d.enterInterrupt = d := rfl
@[simp] theorem returnFromInterrupt_eq (d : DB) : d.returnFromInterrupt = d := rfl

/-! ## Host block -/

@[simp] theorem drained_iff (h : HB) : h.drained = true ↔ h.uartQ = [] := by
  simp [HB.drained]

@[simp] theorem sending_iff (h : HB) : h.sending = true ↔ h.btState = .txAssert ∨
    h.btState = .txWrite ∨ h.btState = .txDrain ∨ h.btState = .txRelease := by
  simp [HB.sending, or_assoc]

/-- `releaseDirection` writes only `de` and `dir_claimed`. -/
theorem releaseDirection_eq (h : HB) : h.releaseDirection
    = { h with de := if h.dirClaimed then false else h.de, dirClaimed := false } := by
  rcases h with ⟨_, _, _, _, _, _, _, c, _⟩
  cases c <;> rfl

/-- `claimDirection` holds the output and drives it to receive. -/
theorem claimDirection_eq (h : HB) : h.claimDirection = { h with dirClaimed := true, de := false } :=
  rfl

/-- R114: a teardown reports an error exactly when a release it attempted failed. -/
theorem teardownFailure_eq (dirClaimed releaseOk closeOk : Bool) :
    teardownFailure dirClaimed releaseOk closeOk
      = if (dirClaimed = true ∧ releaseOk = false) ∨ closeOk = false then some .teardownError
        else none := by
  cases dirClaimed <;> cases releaseOk <;> cases closeOk <;> rfl

/-- The elements of `overlay`. -/
theorem overlay_getElem (buf : Vector Byte 69) (bytes : List Byte) (j : Nat) (hj : j < 69) :
    (overlay buf bytes)[j] = bytes.getD j buf[j] := by
  simp [overlay]

/-! ## The wire -/

theorem busAfter_true (bus : List Byte) (b : Byte) : busAfter bus b true = bus ++ [b] := rfl
theorem busAfter_false (bus : List Byte) (b : Byte) : busAfter bus b false = bus := rfl

/-- The device takes the oldest waiting byte or none. -/
theorem busTake_cases (bus : List Byte) (b : Byte) :
    bus = b :: busTake bus b ∨ (bus = busTake bus b ∧ bus.head? ≠ some b) := by
  cases bus with
  | nil => simp [busTake]
  | cons x rest =>
    by_cases h : x = b
    · simp [busTake, h]
    · simp [busTake, h]

theorem busTake_suffix (bus : List Byte) (b : Byte) : busTake bus b <:+ bus := by
  rcases busTake_cases bus b with h | ⟨h, -⟩
  · exact ⟨[b], h.symm⟩
  · exact ⟨[], h.symm⟩

theorem onBus_append (v w : List WireByte) : onBus (v ++ w) = onBus v ++ onBus w := by
  simp [onBus]

/-! ## Device block -/

/-- R132, first row. -/
theorem receive_idle (d : DB) (b : Byte) (h : d.rxState = .idle) : d.receive b = .ok { d with
    rxState := .active, rxCnt := 1, dataReady := false, staging := d.staging.set 0 b,
    tmrArmed := true, tmrCnt := Config.tIdle } := by
  simp [DB.receive, h, DB.startFrame, DB.storeByte, DB.armTimer, DB.frameComplete]

/-- R132, second row. -/
theorem receive_middle (d : DB) (b : Byte) (h : d.rxState = .active) (c : d.rxCnt < 29) :
    d.receive b = .ok { d with
      rxCnt := d.rxCnt + 1, staging := d.staging.set d.rxCnt b, tmrArmed := true,
      tmrCnt := Config.tIdle } := by
  have c30 : d.rxCnt < 30 := by omega
  have last : ¬ d.rxCnt + 1 = 30 := by omega
  simp [DB.receive, h, c30, DB.storeByte, DB.armTimer, DB.frameComplete]
  omega

/-- R132, third row. -/
theorem receive_last (d : DB) (b : Byte) (h : d.rxState = .active) (c : d.rxCnt = 29) :
    d.receive b = .ok { d with
      rxState := .idle, rxCnt := 30, dataReady := true, staging := d.staging.set 29 b,
      tmrArmed := false, tmrCnt := Config.tIdle } := by
  simp [DB.receive, h, c, DB.storeByte, DB.armTimer, DB.frameComplete, DB.finishFrame]

/-- Outside the range of the counter. -/
theorem receive_outOfRange (d : DB) (b : Byte) (h : d.rxState = .active) (c : 30 ≤ d.rxCnt) :
    d.receive b = .error .stagingIndexOutOfRange := by
  have c30 : ¬ d.rxCnt < 30 := by omega
  simp [DB.receive, h, c30]

/-- R135. -/
theorem timeOut_eq (d : DB) : d.timeOut = { d with tmrArmed := false, rxState := .idle } := by
  rcases d with ⟨r, _, _, _, _, _, _, _, _, _, _⟩
  cases r <;> rfl

/-- R134, the timer stopped. -/
theorem countDown_stopped (d : DB) (h : d.tmrArmed = false) : d.countDown = d := by
  simp [DB.countDown, h]

/-- R134, before the last tick. -/
theorem countDown_running (d : DB) (h : d.tmrArmed = true) (c : 2 ≤ d.tmrCnt) :
    d.countDown = { d with tmrCnt := d.tmrCnt - 1 } := by
  have : ¬ d.tmrCnt - 1 = 0 := by omega
  simp [DB.countDown, h, this, DB.timerExpired]

/-- R135: the timeout taken. -/
theorem serveTimeout_eq (d : DB) :
    d.serveTimeout = { d with tmrArmed := false, rxState := .idle, raised := none } := by
  simp [DB.serveTimeout, timeOut_eq, DB.takeInner]

/-- R134, R135: the last tick. -/
theorem countDown_expires (d : DB) (h : d.tmrArmed = true) (c : d.tmrCnt ≤ 1) :
    d.countDown = { d with tmrCnt := 0, tmrArmed := false, rxState := .idle, raised := none } := by
  have : d.tmrCnt - 1 = 0 := by omega
  simp [DB.countDown, h, this, DB.timerExpired, serveTimeout_eq, DB.raiseInner]

/-- Every outcome of a tick in one equation: only the timer, the receiver's state and the marker of
what is pending are written. -/
theorem countDown_eq (d : DB) : d.countDown = { d with
    rxState := d.countDown.rxState, tmrArmed := d.countDown.tmrArmed,
    tmrCnt := d.countDown.tmrCnt, raised := d.countDown.raised } := by
  cases h : d.tmrArmed
  · rw [countDown_stopped d h]
  · by_cases c : 2 ≤ d.tmrCnt
    · rw [countDown_running d h c]
    · rw [countDown_expires d h (by omega)]

/-- R156, a frame waiting. -/
theorem transferFrame_ready (d : DB) (h : d.dataReady = true) : d.transferFrame
    = { d with active := d.staging, dataReady := false, rxIntEn := true } := by
  simp [DB.transferFrame, h, DB.setRxInterrupt, DB.copyStaging]

/-- R156, no frame waiting. -/
theorem transferFrame_notReady (d : DB) (h : d.dataReady = false) : d.transferFrame = d := by
  simp [DB.transferFrame, h]

/-- R156, the transfer taken. -/
theorem serveTransfer_eq (d : DB) : d.serveTransfer
    = { d with
        active := if d.dataReady = true then d.staging else d.active
        dataReady := false
        rxIntEn := if d.dataReady = true then true else d.rxIntEn
        raised := none } := by
  cases h : d.dataReady
  · simp [DB.serveTransfer, transferFrame_notReady, h, DB.takeInner]
  · simp [DB.serveTransfer, transferFrame_ready, h, DB.takeInner]

@[simp] theorem phaseWrapped_iff (d : DB) : d.phaseWrapped = true ↔ d.phase = 0 := by
  simp [DB.phaseWrapped]

/-! ## PWM arithmetic -/

/-- R151: the staggered count as a number. -/
theorem staggeredCount_toNat (phase : BitVec 8) (i : Nat) :
    (staggeredCount phase i).toNat = (phase.toNat + 8 * i) % 256 := by
  simp [staggeredCount, BitVec.toNat_add, Nat.add_mod]

/-- R163: the comparison as a comparison of numbers. -/
theorem pwmLevel_iff (v : Byte) (phase : BitVec 8) (i : Nat) :
    pwmLevel v phase i = true ↔ (phase.toNat + 8 * i) % 256 < v.toNat := by
  simp [pwmLevel, BitVec.ult, staggeredCount_toNat]

/-- The elements of the output vector. -/
theorem pwmOutputs_getElem (active : Vector Byte 30) (phase : BitVec 8) (i : Fin 30) :
    (pwmOutputs active phase)[i] = pwmLevel active[i] phase i.val := by
  simp [pwmOutputs]

/-- `phase` wraps to 0 exactly from 255. -/
theorem phase_wraps_iff (phase : BitVec 8) : phase + 1 = 0 ↔ phase = 255 := by
  constructor <;> intro h <;> bv_omega

/-! ## Taking an event -/

/-- A step takes the record at the head of the input. -/
theorem takeEvent_ok (s : State) (i : Instr) (rest : List Byte)
    (h : decode s.input = .ok (i, rest)) : takeEvent s = .ok (i, { s with input := rest }) := by
  cases hin : s.input with
  | nil => simp [hin, decode] at h
  | cons x xs => rw [hin] at h; simp [takeEvent, hin, h]

/-- What a step that answers a next state has taken. -/
theorem step_next (s t : State) (h : step s = .next t) :
    ∃ i rest, decode s.input = .ok (i, rest) ∧ exec i { s with input := rest } = .next t := by
  unfold step at h
  cases he : takeEvent s with
  | error r => simp [he] at h
  | ok p =>
    obtain ⟨i, s'⟩ := p
    rw [he] at h
    unfold takeEvent at he
    split at he
    · simp at he
    · cases hd : decode s.input with
      | error e => simp [hd] at he
      | ok q =>
        obtain ⟨j, rest⟩ := q
        simp only [hd, Except.ok.injEq, Prod.mk.injEq] at he
        obtain ⟨rfl, rfl⟩ := he
        exact ⟨j, rest, rfl, h⟩

end Sys2Proof.Machine
end

