-- ==== Sys2Proof/Laws/Exec.lean ====
section
/-! SUPPORT. For each meaning, everything it can do when it answers a next state: the condition under
which it does, and that state.  Provers cite these instead of unfolding the meanings. -/

namespace Sys2Proof.Machine

theorem execReset_hb (s : State) : execReset .hb s = .next { s with
    hb := HB.resetWith s.hostDraws, hostDraws := s.hostDraws + 1, result := none } := rfl

theorem execReset_db (s : State) : execReset .db s = .next { s with
    db := DB.resetWith s.deviceDraws, deviceDraws := s.deviceDraws + 1, result := none } := rfl

theorem execCkCreate_next {bytes : List Byte} {s t : State} (h : execCkCreate bytes s = .next t) :
    t = { s with result := some ⟨.ckCreate, .byte (ck bytes)⟩ } := by
  cases h; rfl

theorem execCkVerify_next {bytes : List Byte} {e : Byte} {s t : State}
    (h : execCkVerify bytes e s = .next t) :
    t = { s with result := some ⟨.ckVerify, .bit (decide (ck bytes = e))⟩ } := by
  cases h; rfl

/-- `ENCODE` changes the result alone. -/
theorem execFrameEncode_next {a b : Byte} {p : List Byte} {s t : State}
    (h : execFrameEncode a b p s = .next t) :
    t = { s with result := some ⟨.encode, match encodeFrame a b p with
      | .error k => .error k
      | .ok f => .frame f⟩ } := by
  unfold execFrameEncode at h
  cases he : encodeFrame a b p <;> simp only [he] at h <;> cases h <;> rfl

/-- `DECODE` changes the result alone. -/
theorem execFrameDecode_next {bytes : List Byte} {s t : State}
    (h : execFrameDecode bytes s = .next t) :
    t = { s with result := some ⟨.decode, match decodeFrame bytes with
      | .error k => .error k
      | .ok (a, b, p) => .decoded a b p⟩ } := by
  unfold execFrameDecode at h
  cases he : decodeFrame bytes <;> simp only [he] at h <;> cases h <;> rfl

/-- `BT_INIT`: the open line, or the failure, which leaves `line_open` alone or clears it. -/
theorem execBtInit_next {baud : Nat} {openOk cfgOk : Bool} {claim : Claim} {s t : State}
    (h : execBtInit baud openOk cfgOk claim s = .next t) : s.hb.btState = .closed ∧
    ((openOk = true ∧ cfgOk = true ∧ claim ≠ .fail ∧ t = { s with
        hb := { s.hb with lineOpen := true, dirClaimed := true, de := false, btState := .ready,
                          cfg := LineConfig.standard baud }
        result := some ⟨.btInit, .ok⟩ }) ∨
     (openOk = false ∧ t = { s with result := some ⟨.btInit, .error .configurationError⟩ }) ∨
     (openOk = true ∧ (cfgOk = false ∨ claim = .fail) ∧ t = { s with
        hb := { s.hb with lineOpen := false }
        result := some ⟨.btInit, .error .configurationError⟩ })) := by
  unfold execBtInit at h
  split at h
  next hc =>
    refine ⟨hc, ?_⟩
    split at h
    next ho => cases h; exact .inr (.inl ⟨ho, rfl⟩)
    next ho =>
      have ho : openOk = true := by simpa using ho
      split at h
      next hg => cases h; exact .inr (.inr ⟨ho, .inl hg, rfl⟩)
      next hg =>
        have hg : cfgOk = true := by simpa using hg
        split at h
        next hf => cases h; exact .inr (.inr ⟨ho, .inr hf.2, rfl⟩)
        next hf =>
          cases h
          exact .inl ⟨ho, hg, fun e => hf ⟨rfl, e⟩, rfl⟩
  next => cases h

/-- `SEND`: accepted or rejected. -/
theorem execSend_next {a b : Byte} {p : List Byte} {s t : State}
    (h : execSend a b p s = .next t) : s.hb.btState = .ready ∧
    ((p.length ≤ 64 ∧ t = { s with
        hb := { s.hb with txbuf := overlay s.hb.txbuf (frameBytes a b p),
                          txLen := (frameBytes a b p).length, txIdx := 0, btState := .txAssert }
        result := none }) ∨
     (64 < p.length ∧ t = { s with result := some ⟨.send, .error .validationError⟩ })) := by
  unfold execSend encodeFrame encodeFrameWith at h
  split at h
  next hr =>
    refine ⟨hr, ?_⟩
    by_cases hp : 64 < p.length
    · simp only [Config.maxPayload, gt_iff_lt, hp, if_true] at h
      cases h; exact .inr ⟨hp, rfl⟩
    · simp only [Config.maxPayload, gt_iff_lt, hp, if_false] at h
      cases h; exact .inl ⟨by omega, rfl⟩
  next => cases h

theorem execBtShutdown_next {r c : Bool} {s t : State} (h : execBtShutdown r c s = .next t) :
    s.hb.btState = .ready ∧ t = { s with
      hb := { s.hb with
        de := if s.hb.dirClaimed then false else s.hb.de
        dirClaimed := false
        lineOpen := false
        uartQ := []
        btState := .closed }
      result := some ⟨.btShutdown, if (s.hb.dirClaimed = true ∧ r = false) ∨ c = false
        then .error .teardownError else .ok⟩ } := by
  unfold execBtShutdown at h
  split at h
  next hr =>
    refine ⟨hr, ?_⟩
    rw [teardownFailure_eq, releaseDirection_eq] at h
    by_cases hf : (s.hb.dirClaimed = true ∧ r = false) ∨ c = false
    · rw [if_pos hf] at h ⊢
      cases h; rfl
    · rw [if_neg hf] at h ⊢
      cases h; rfl
  next => cases h

theorem execTxAssert_next {s t : State} (h : execTxAssert s = .next t) :
    s.hb.btState = .txAssert ∧
    t = { s with hb := { s.hb with de := true, btState := .txWrite }, result := none } := by
  unfold execTxAssert at h
  split at h
  next hs => cases h; exact ⟨hs, rfl⟩
  next => cases h

theorem execTxWrite_next {s t : State} (h : execTxWrite s = .next t) :
    s.hb.btState = .txWrite ∧ ∃ r : s.hb.txIdx < 69, t = { s with
      hb := { s.hb with
        uartQ := s.hb.uartQ ++ [s.hb.txbuf[s.hb.txIdx]]
        txIdx := s.hb.txIdx + 1
        btState := if s.hb.txIdx + 1 = s.hb.txLen then .txDrain else .txWrite }
      result := none } := by
  unfold execTxWrite at h
  split at h
  next hs =>
    split at h
    next r =>
      refine ⟨hs, r, ?_⟩
      cases h
      by_cases hl : s.hb.txIdx + 1 = s.hb.txLen <;>
        simp [HB.queueByte, State.silent, hl, hs]
    next => cases h
  next => cases h

theorem execTxDrainDone_next {s t : State} (h : execTxDrainDone s = .next t) :
    s.hb.btState = .txDrain ∧ s.hb.uartQ = [] ∧
    t = { s with hb := { s.hb with btState := .txRelease }, result := none } := by
  unfold execTxDrainDone at h
  split at h
  next hs => cases h; exact ⟨hs.1, (drained_iff _).mp hs.2, rfl⟩
  next => cases h

theorem execTxRelease_next {s t : State} (h : execTxRelease s = .next t) :
    s.hb.btState = .txRelease ∧ t = { s with
      hb := { s.hb with de := false, btState := .ready }
      result := some ⟨.send, .ok⟩ } := by
  unfold execTxRelease at h
  split at h
  next hs => cases h; exact ⟨hs, rfl⟩
  next => cases h

theorem execLineByte_next {s t : State} (h : execLineByte s = .next t) :
    ∃ b rest, s.hb.uartQ = b :: rest ∧ t = { s with
      hb := { s.hb with uartQ := rest }
      wire := s.wire ++ [⟨b, s.hb.de⟩]
      bus := busAfter s.bus b s.hb.de
      result := none } := by
  unfold execLineByte at h
  split at h
  next => cases h
  next b rest hq => cases h; exact ⟨b, rest, hq, rfl⟩

theorem execIoError_next {s t : State} (h : execIoError s = .next t) :
    (s.hb.btState = .txAssert ∨ s.hb.btState = .txWrite ∨ s.hb.btState = .txDrain ∨
      s.hb.btState = .txRelease) ∧ t = { s with
      hb := { s.hb with
        btState := .ready
        de := Config.drawDE s.hostDraws
        uartQ := if Config.drawDropQueue s.hostDraws then [] else s.hb.uartQ }
      result := some ⟨.send, .error .transportError⟩
      hostDraws := s.hostDraws + 1 } := by
  unfold execIoError at h
  split at h
  next hs => cases h; exact ⟨(sending_iff _).mp hs, rfl⟩
  next => cases h

theorem execDevInit_next {s t : State} (h : execDevInit s = .next t) : s.db.devInit = false ∧
    t = { s with db := { s.db with devInit := true, rxIntEn := true }, bus := [],
                 result := none } := by
  unfold execDevInit at h
  split at h
  next hs => cases h; exact ⟨hs, rfl⟩
  next => cases h

/-- `RX_BYTE`: the three rows of R132. -/
theorem execRxByte_next {b : Byte} {s t : State} (h : execRxByte b s = .next t) :
    s.db.rxIntEn = true ∧ ∃ d, s.db.receive b = .ok d ∧
      t = { s with db := d, bus := busTake s.bus b, result := none } ∧
      ((s.db.rxState = .idle ∧ d = { s.db with
          rxState := .active, rxCnt := 1, dataReady := false, staging := s.db.staging.set 0 b,
          tmrArmed := true, tmrCnt := Config.tIdle }) ∨
       (∃ c : s.db.rxCnt < 29, s.db.rxState = .active ∧ d = { s.db with
          rxCnt := s.db.rxCnt + 1, staging := s.db.staging.set s.db.rxCnt b, tmrArmed := true,
          tmrCnt := Config.tIdle }) ∨
       (s.db.rxCnt = 29 ∧ s.db.rxState = .active ∧ d = { s.db with
          rxState := .idle, rxCnt := 30, dataReady := true, staging := s.db.staging.set 29 b,
          tmrArmed := false, tmrCnt := Config.tIdle })) := by
  unfold execRxByte at h
  split at h
  next he =>
    refine ⟨he, ?_⟩
    simp only [enterInterrupt_eq, returnFromInterrupt_eq] at h
    cases hr : s.db.receive b with
    | error f => simp only [hr] at h; cases h
    | ok d =>
      simp only [hr] at h
      cases h
      refine ⟨d, rfl, rfl, ?_⟩
      cases hs : s.db.rxState with
      | idle =>
        rw [receive_idle _ _ hs] at hr
        cases hr; exact .inl ⟨rfl, rfl⟩
      | active =>
        by_cases c : s.db.rxCnt < 29
        · rw [receive_middle _ _ hs c] at hr
          cases hr; exact .inr (.inl ⟨c, rfl, rfl⟩)
        · by_cases c' : s.db.rxCnt = 29
          · rw [receive_last _ _ hs c'] at hr
            cases hr; exact .inr (.inr ⟨c', rfl, rfl⟩)
          · rw [receive_outOfRange _ _ hs (by omega)] at hr
            cases hr
  next => cases h

theorem execTick_next {s t : State} (h : execTick s = .next t) :
    t = { s with db := s.db.countDown, result := none } := by
  cases h; rfl

theorem execIdleTimeout_next {s t : State} (h : execIdleTimeout s = .next t) :
    s.db.raised = some .idleTimeout ∧ t = { s with
      db := { s.db with tmrArmed := false, rxState := .idle, raised := none }
      result := none } := by
  unfold execIdleTimeout at h
  split at h
  next hr => cases h; exact ⟨hr, by simp [serveTimeout_eq, State.silent]⟩
  next => cases h

/-- `PWM_STEP`: away from the boundary, at the boundary with no frame waiting, at the boundary with a
frame waiting. -/
theorem execPwmStep_next {s t : State} (h : execPwmStep s = .next t) : s.db.devInit = true ∧
    ((s.db.phase ≠ 255 ∧ t = { s with
        db := { s.db with out := pwmOutputs s.db.active s.db.phase, phase := s.db.phase + 1 }
        result := none }) ∨
     (s.db.phase = 255 ∧ s.db.dataReady = false ∧ t = { s with
        db := { s.db with out := pwmOutputs s.db.active s.db.phase, phase := 0, raised := none }
        result := none }) ∨
     (s.db.phase = 255 ∧ s.db.dataReady = true ∧ t = { s with
        db := { s.db with out := pwmOutputs s.db.active s.db.phase, phase := 0,
                          active := s.db.staging, dataReady := false, rxIntEn := true,
                          raised := none }
        result := none })) := by
  unfold execPwmStep at h
  split at h
  next hd =>
    refine ⟨hd, ?_⟩
    simp only [phaseWrapped_iff, DB.compareAndCount_phase, phase_wraps_iff] at h
    by_cases hp : s.db.phase = 255
    · rw [if_pos hp, serveTransfer_eq] at h
      cases hr : s.db.dataReady
      · cases h
        refine .inr (.inl ⟨hp, rfl, ?_⟩)
        simp [State.silent, DB.compareAndCount, DB.raiseInner, hp, hr]
      · cases h
        refine .inr (.inr ⟨hp, rfl, ?_⟩)
        simp [State.silent, DB.compareAndCount, DB.raiseInner, hp, hr]
    · rw [if_neg hp] at h
      cases h
      exact .inl ⟨hp, rfl⟩
  next => cases h

theorem execTransfer_next {s t : State} (h : execTransfer s = .next t) :
    s.db.raised = some .transfer ∧
    ((s.db.dataReady = true ∧ t = { s with
        db := { s.db with active := s.db.staging, dataReady := false, rxIntEn := true,
                          raised := none }
        result := none }) ∨
     (s.db.dataReady = false ∧ t = { s with
        db := { s.db with raised := none }
        result := none })) := by
  unfold execTransfer at h
  split at h
  next hs =>
    refine ⟨hs, ?_⟩
    rw [serveTransfer_eq] at h
    cases h
    cases hr : s.db.dataReady
    · exact .inr ⟨rfl, by simp [State.silent, ← hr]⟩
    · exact .inl ⟨rfl, by simp [State.silent]⟩
  next => cases h

theorem execFrame_refused (a b c : Byte) (p : List Byte) (s : State) :
    execFrame a b p c s = .refused .frameNamesNoEvent := rfl

/-! ## Runs -/

@[simp] theorem runEvents_nil (s : State) : runEvents [] s = .next s := rfl

theorem runEvents_cons_next {i : Instr} {is : List Instr} {s t : State}
    (h : exec i s = .next t) : runEvents (i :: is) s = runEvents is t := by
  simp [runEvents, h]

/-- What the first event of a completed run did. -/
theorem runEvents_cons_inv {i : Instr} {is : List Instr} {s u : State}
    (h : runEvents (i :: is) s = .next u) : ∃ t, exec i s = .next t ∧ runEvents is t = .next u := by
  unfold runEvents at h
  split at h
  next t ht => exact ⟨t, ht, h⟩
  next => cases h
  next => cases h

theorem runEvents_append_next {is js : List Instr} {s t : State}
    (h : runEvents is s = .next t) : runEvents (is ++ js) s = runEvents js t := by
  induction is generalizing s with
  | nil => cases h; rfl
  | cons i is ih =>
    obtain ⟨m, hm, ht⟩ := runEvents_cons_inv h
    rw [List.cons_append, runEvents_cons_next hm, ih ht]

/-- A completed run of two parts passes a state between them. -/
theorem runEvents_append_inv {is js : List Instr} {s u : State}
    (h : runEvents (is ++ js) s = .next u) :
    ∃ t, runEvents is s = .next t ∧ runEvents js t = .next u := by
  induction is generalizing s with
  | nil => exact ⟨s, rfl, h⟩
  | cons i is ih =>
    obtain ⟨m, hm, ht⟩ := runEvents_cons_inv h
    obtain ⟨t, h1, h2⟩ := ih ht
    exact ⟨t, by rw [runEvents_cons_next hm, h1], h2⟩

/-- The induction over a run, packaged once: what every event of a kind keeps, every run of such
events keeps. -/
theorem runEvents_keeps {P : State → Prop} {allowed : Instr → Prop}
    (keep : ∀ i s t, allowed i → P s → exec i s = .next t → P t)
    {is : List Instr} {s t : State} (ha : ∀ i ∈ is, allowed i) (hs : P s)
    (h : runEvents is s = .next t) : P t := by
  induction is generalizing s with
  | nil => cases h; exact hs
  | cons i is ih =>
    obtain ⟨m, hm, ht⟩ := runEvents_cons_inv h
    exact ih (fun j hj => ha j (by simp [hj])) (keep i s m (ha i (by simp)) hs hm) ht

end Sys2Proof.Machine
end

