-- ==== Sys2Proof/Laws/PerInstr.lean ====
section
/-! SUPPORT. A fact about every instruction as it is encoded, one lemma a constructor: the first byte
of its encoding is its code in the table of spec/30_encoding.md R66. -/

namespace Sys2Proof.Laws.LeadsWithCode

/-- The first byte of the encoding is the code of the table. -/
def Statement (i : Instr) : Prop := (encode i).head? = some i.code

theorem reset (block : Block) : Statement (.reset block) := rfl
theorem ckCreate (bytes : List Byte) : Statement (.ckCreate bytes) := rfl
theorem ckVerify (bytes : List Byte) (expected : Byte) : Statement (.ckVerify bytes expected) := rfl
theorem frameEncode (source destination : Byte) (payload : List Byte) :
    Statement (.frameEncode source destination payload) := rfl
theorem frameDecode (bytes : List Byte) : Statement (.frameDecode bytes) := rfl
theorem btInit (baud : Nat) (openOk cfgOk : Bool) (claim : Claim) :
    Statement (.btInit baud openOk cfgOk claim) := rfl
theorem send (source destination : Byte) (payload : List Byte) :
    Statement (.send source destination payload) := rfl
theorem btShutdown (releaseOk closeOk : Bool) : Statement (.btShutdown releaseOk closeOk) := rfl
theorem txAssert : Statement .txAssert := rfl
theorem txWrite : Statement .txWrite := rfl
theorem txDrainDone : Statement .txDrainDone := rfl
theorem txRelease : Statement .txRelease := rfl
theorem lineByte : Statement .lineByte := rfl
theorem ioError : Statement .ioError := rfl
theorem devInit : Statement .devInit := rfl
theorem rxByte (b : Byte) : Statement (.rxByte b) := rfl
theorem tick : Statement .tick := rfl
theorem pwmStep : Statement .pwmStep := rfl
theorem idleTimeout : Statement .idleTimeout := rfl
theorem transfer : Statement .transfer := rfl
theorem frame (destination source : Byte) (payload : List Byte) (checksum : Byte) :
    Statement (.frame destination source payload checksum) := rfl

end Sys2Proof.Laws.LeadsWithCode
end

