-- ==== Sys2Proof/Tests/Slice0.lean ====
section
/-! SUPPORT. Tests: ill-formed terms that well-formedness refuses, records written out from the table of
spec/30_encoding.md R66, vectors of spec/95_test_vectors.md (named in each docstring), and for every
obligation with hypotheses a concrete state and operands that meet them. -/

namespace Sys2Proof.Tests

open Sys2Proof.Machine

set_option maxRecDepth 16000

/-! ## Helpers: small states, and reading one thing of a step's outcome -/

/-- A value of the next state, if there is one. -/
def after {α : Type} (f : State → α) : Host.Outcome State Fault Refusal → Option α
  | .next t => some (f t)
  | .fault _ => none
  | .refused _ => none

/-- The next state, or the reset state where there is none. -/
def nextOr (o : Host.Outcome State Fault Refusal) : State :=
  match o with
  | .next t => t
  | .fault _ => State.reset
  | .refused _ => State.reset

/-- Why a step is refused, if it is. -/
def refusal : Host.Outcome State Fault Refusal → Option Refusal
  | .next _ => none
  | .fault _ => none
  | .refused r => some r

/-- Why a step faults, if it does. -/
def faultOf : Host.Outcome State Fault Refusal → Option Fault
  | .next _ => none
  | .fault r => some r
  | .refused _ => none

/-- The host open, in `Ready`. -/
def ready : State :=
  { State.reset with hb := { HB.atReset with btState := .ready, lineOpen := true, dirClaimed := true } }

/-- The host in a given sequencer state, with a frame `40 02 01 00 58` in the buffer, a position in
it, a queue and a direction line. -/
def sending (b : BtState) (idx : Nat) (q : List Byte) (de : Bool) : State :=
  { ready with hb := { ready.hb with
      btState := b, txIdx := idx, txLen := 5, uartQ := q, de := de,
      txbuf := overlay HB.atReset.txbuf [0x40, 0x02, 0x01, 0x00, 0x58] } }

/-- The device booted. -/
def booted : State :=
  { State.reset with db := { DB.atReset with devInit := true, rxIntEn := true } }

/-- The device `Active` with `c` bytes stored and `n` ticks left. -/
def receiving (c n : Nat) : State :=
  { booted with db := { booted.db with
      rxState := .active, rxCnt := c, tmrArmed := true, tmrCnt := n } }

/-- The device with a phase, a brightness of all channels, and a frame of `22`s waiting or not. -/
def showing (phase : BitVec 8) (v : Byte) (waiting : Bool) : State :=
  { booted with db := { booted.db with
      phase := phase, active := Vector.replicate 30 v, staging := Vector.replicate 30 0x22,
      dataReady := waiting, rxCnt := 30 } }

/-- The device in the middle of an event that has raised an inner step. -/
def raising (i : InnerStep) (s : State) : State := { s with db := s.db.raiseInner i }

/-- Both blocks after a reset in the middle of a send and of a frame. -/
def afterResets : State :=
  nextOr (runEvents [.reset .hb, .reset .db]
    { sending .txDrain 5 [0x58] true with db := (receiving 12 2).db })

/-! ## Well-formedness refuses -/

/-- R67: the length of a payload is one byte. -/
theorem test_wf_encode_256 : (Instr.frameEncode 1 2 (List.replicate 256 0)).wf = false := by decide
theorem test_wf_send_256 : (Instr.send 1 2 (List.replicate 256 0)).wf = false := by decide
/-- R62: a frame's payload has at most 64 bytes. -/
theorem test_wf_frame_65 : (Instr.frame 1 2 (List.replicate 65 0) 0).wf = false := by decide
/-- The boundary values are accepted. -/
theorem test_wf_boundaries : (Instr.send 1 2 (List.replicate 255 0)).wf = true ∧
    (Instr.frame 1 2 (List.replicate 64 0) 0).wf = true ∧ (Instr.btInit 0 true true .ok).wf = true := by
  decide

/-! ## Decoding: one record written out for every row of R66, and for R60 -/

theorem test_decode_reset : decode [0x00, 0x01] = .ok (.reset .db, []) := by decide
theorem test_decode_ckCreate : decode [0x01, 0x02, 0xA0, 0x0B] = .ok (.ckCreate [0xA0, 0x0B], []) := by
  decide
theorem test_decode_ckVerify :
    decode [0x02, 0x02, 0xA0, 0x0B, 0xC7] = .ok (.ckVerify [0xA0, 0x0B] 0xC7, []) := by decide
/-- Source first (R71). -/
theorem test_decode_encode :
    decode [0x03, 0x01, 0x02, 0x01, 0xAA, 0x99] = .ok (.frameEncode 0x01 0x02 [0xAA], [0x99]) := by decide
theorem test_decode_decode :
    decode [0x04, 0x03, 0x40, 0x02, 0x01] = .ok (.frameDecode [0x40, 0x02, 0x01], []) := by decide
/-- 115200 is `7 * 2^14 + 4 * 2^7 + 0`: groups `00`, `04`, `07`, least significant first. -/
theorem test_decode_btInit :
    decode [0x10, 0x80, 0x84, 0x07, 0x01, 0x00, 0x02] = .ok (.btInit 115200 true false .fail, []) := by
  decide
/-- Program P5, event 1. -/
theorem test_decode_send : decode [0x11, 0x01, 0x02, 0x01, 0xAA] = .ok (.send 0x01 0x02 [0xAA], []) := by
  decide
theorem test_decode_btShutdown : decode [0x12, 0x00, 0x01] = .ok (.btShutdown false true, []) := by decide
theorem test_decode_txAssert : decode [0x18] = .ok (.txAssert, []) := by decide
theorem test_decode_txWrite : decode [0x19] = .ok (.txWrite, []) := by decide
theorem test_decode_txDrainDone : decode [0x1A] = .ok (.txDrainDone, []) := by decide
theorem test_decode_txRelease : decode [0x1B] = .ok (.txRelease, []) := by decide
theorem test_decode_lineByte : decode [0x1C] = .ok (.lineByte, []) := by decide
theorem test_decode_ioError : decode [0x1D] = .ok (.ioError, []) := by decide
theorem test_decode_devInit : decode [0x20] = .ok (.devInit, []) := by decide
/-- Program P2, event 2. -/
theorem test_decode_rxByte : decode [0x21, 0xA0, 0x21] = .ok (.rxByte 0xA0, [0x21]) := by decide
theorem test_decode_tick : decode [0x22] = .ok (.tick, []) := by decide
theorem test_decode_pwmStep : decode [0x23, 0x23] = .ok (.pwmStep, [0x23]) := by decide
theorem test_decode_idleTimeout : decode [0x28] = .ok (.idleTimeout, []) := by decide
theorem test_decode_transfer : decode [0x29] = .ok (.transfer, []) := by decide
/-- V-COD-2's frame: destination at offset 1, source at offset 2. -/
theorem test_decode_frame :
    decode [0x40, 0x02, 0x01, 0x01, 0xAA, 0xC5] = .ok (.frame 0x02 0x01 [0xAA] 0xC5, []) := by decide

/-- R69: what names no event is rejected by name. -/
theorem test_decode_rejects :
    decode [] = .error .truncated ∧ decode [0x11, 0x01, 0x02, 0x02, 0xAA] = .error .truncated ∧
    decode [0x05] = .error (.unknownCode 0x05) ∧ decode [0x30] = .error (.unknownCode 0x30) ∧
    decode [0x00, 0x02] = .error (.badBlock 0x02) ∧ decode [0x12, 0x02, 0x00] = .error (.badBit 0x02) ∧
    decode [0x10, 0x01, 0x01, 0x01, 0x03] = .error (.badClaim 0x03) ∧
    decode [0x01, 0x80, 0x00] = .error .overlongNumber ∧
    decode [0x40, 0x02, 0x01, 0x41] = .error (.frameTooLong 0x41) := by decide

/-- The table's words: the code byte alone, operand bytes zero. -/
theorem test_tableWord : decodeTableWord 8 0x11 = some (.send 0 0 []) ∧
    decodeTableWord 8 0x40 = some (.frame 0 0 [] 0) ∧ decodeTableWord 8 0x05 = none ∧
    decodeTableWord 16 0xA021 = some (.rxByte 0xA0) := by decide

/-- A table word as the next event: `TICK` runs first after reset. -/
theorem test_withFetchWord : after (fun t => t.input)
    (step (State.withFetchWord State.reset 8 0x22)) = some [] := by decide

/-! ## Checksum: V-CK-1 to V-CK-8 -/

theorem test_ckRef : [[], [0x00], [0x01], [0x40], [0x80], [0xFF],
    [0x31, 0x32, 0x33, 0x34, 0x35, 0x36, 0x37, 0x38, 0x39], [0x40, 0x10, 0xFE, 0x1E],
    [0x40, 0xFE, 0x10, 0x1E]].map ckRef
    = [0x00, 0x00, 0x07, 0xC7, 0x89, 0xF3, 0xF4, 0xA1, 0xD6] := by decide
theorem test_ckAlt : [[], [0x01], [0x31, 0x32, 0x33, 0x34, 0x35, 0x36, 0x37, 0x38, 0x39],
    [0x40, 0x10, 0xFE, 0x1E]].map ckAlt = [0x00, 0x01, 0xDD, 0x6C] := by decide
/-- V-CK-14, for the hardware's own checksum. -/
theorem test_ckVerify_empty : after (fun t => t.result) (exec (.ckVerify [] Config.ckInit) ready)
    = some (some ⟨.ckVerify, .bit true⟩) := by
  simp [exec, execCkVerify, ck, checksumFold, after]

/-! ## Frame codec: V-COD-1, V-COD-2, V-COD-4, V-COD-7, V-COD-8, V-DEC-1 to V-DEC-8, V-DEC-10 -/

theorem test_encode : encodeFrameWith ckRef 0x01 0x02 [] = .ok [0x40, 0x02, 0x01, 0x00, 0x58] ∧
    encodeFrameWith ckAlt 0x01 0x02 [0xAA] = .ok [0x40, 0x02, 0x01, 0x01, 0xAA, 0xEE] ∧
    encodeFrameWith ckRef 0xFE 0x10 (List.replicate 30 0x80)
      = .ok ([0x40, 0x10, 0xFE, 0x1E] ++ List.replicate 30 0x80 ++ [0xD5]) ∧
    encodeFrameWith ckRef 0x10 0xFE (List.replicate 30 0x80)
      = .ok ([0x40, 0xFE, 0x10, 0x1E] ++ List.replicate 30 0x80 ++ [0x7A]) := by decide
theorem test_encode_65 : after (fun t => t.result) (exec (.frameEncode 1 2 (List.replicate 65 0)) ready)
    = some (some ⟨.encode, .error .validationError⟩) := by decide
theorem test_decodeFrame :
    decodeFrameWith ckRef [0x40, 0x02, 0x01, 0x01, 0xAA, 0xC5] = .ok (0x01, 0x02, [0xAA]) ∧
    decodeFrameWith ckRef [0x40, 0x02, 0x01, 0x00, 0x58] = .ok (0x01, 0x02, []) := by decide
theorem test_decodeFrame_rejects : ∀ bytes ∈ ([[0x40, 0x02, 0x01, 0x01], [],
    [0x41, 0x02, 0x01, 0x01, 0xAA, 0xC5], [0x40, 0x02, 0x01, 0x01, 0xAA, 0xC5, 0x00],
    [0x40, 0x02, 0x01, 0x01, 0xAA], [0x40, 0x02, 0x01, 0x01, 0xAA, 0xC4],
    [0x40, 0x02, 0x01, 0x01, 0xAB, 0xC5]] : List (List Byte)),
    decodeFrameWith ckRef bytes = .error .framingError := by decide

/-! ## Bus transceiver: V-BT-1 to V-BT-18 -/

/-- V-BT-2. -/
theorem test_btInit_already : after (fun t => (t.hb.btState, t.hb.dirClaimed, t.hb.cfg, t.result))
    (exec (.btInit 115200 true true .already) State.reset)
    = some (.ready, true, ⟨115200, 8, .none, 1, .none, true⟩, some ⟨.btInit, .ok⟩) := by decide
/-- R102 at rate 0: the pseudocode writes the operand. -/
theorem test_btInit_rate0 : after (fun t => (t.hb.btState, t.hb.cfg.baud, t.result))
    (exec (.btInit 0 true true .ok) State.reset) = some (.ready, 0, some ⟨.btInit, .ok⟩) := by decide
/-- V-BT-3. -/
theorem test_btInit_fail : after (fun t => (t.hb, t.result))
    (exec (.btInit 9600 true true .fail) State.reset)
    = some (State.reset.hb, some ⟨.btInit, .error .configurationError⟩) := by decide
/-- V-BT-6. -/
theorem test_send_65 : after (fun t => (t.hb, t.wire, t.result))
    (exec (.send 1 2 (List.replicate 65 0)) ready)
    = some (ready.hb, [], some ⟨.send, .error .validationError⟩) := by decide
/-- V-BT-7: the bytes before the checksum hold for any checksum. -/
theorem test_send_accepted : after (fun t => (t.hb.btState, t.hb.txLen, t.hb.txIdx, t.hb.de,
    t.hb.txbuf.toList.take 4)) (exec (.send 0x01 0x02 []) ready)
    = some (.txAssert, 5, 0, false, [0x40, 0x02, 0x01, 0x00]) := by decide
/-- V-BT-8. -/
theorem test_txAssert : after (fun t => (t.hb.btState, t.hb.de, t.hb.uartQ))
    (exec .txAssert (sending .txAssert 0 [] false)) = some (.txWrite, true, []) := by decide
/-- V-BT-9, the last of the five. -/
theorem test_txWrite_last : after (fun t => (t.hb.btState, t.hb.txIdx, t.hb.uartQ))
    (exec .txWrite (sending .txWrite 4 [0x00] true)) = some (.txDrain, 5, [0x00, 0x58]) := by decide
theorem test_txWrite_outside : faultOf (exec .txWrite (sending .txWrite 69 [] true)) = some .txbufIndexOutOfRange := by
  decide
/-- V-BT-10. -/
theorem test_lineByte : after (fun t => (t.wire, t.bus, t.hb.uartQ))
    (exec .lineByte (sending .txDrain 5 [0x40, 0x58] true))
    = some ([⟨0x40, true⟩], [0x40], [0x58]) := by decide
/-- R191: a byte emitted with the driver off reaches no device. -/
theorem test_lineByte_off : after (fun t => (t.wire, t.bus)) (exec .lineByte (sending .ready 5 [0x40] false))
    = some ([⟨0x40, false⟩], []) := by decide
/-- V-BT-9, V-BT-12: no drain with bytes queued. -/
theorem test_txDrainDone_waits :
    refusal (exec .txDrainDone (sending .txDrain 5 [0x58] true)) = some .notDrained := by decide
/-- V-BT-11. -/
theorem test_txRelease : after (fun t => (t.hb.btState, t.hb.de, t.result))
    (exec .txRelease (sending .txRelease 5 [] true)) = some (.ready, false, some ⟨.send, .ok⟩) := by
  decide
/-- V-BT-14. -/
theorem test_ioError : after (fun t => (t.hb.btState, t.result))
    (exec .ioError (sending .txWrite 3 [0x02, 0x01] true))
    = some (.ready, some ⟨.send, .error .transportError⟩) := by decide
/-- V-BT-13. -/
theorem test_refusals : refusal (exec (.send 1 2 []) State.reset) = some .sendNotReady ∧
    refusal (exec (.send 1 2 []) (sending .txWrite 1 [] true)) = some .sendNotReady ∧
    refusal (exec (.btInit 115200 true true .ok) ready) = some .btInitNotClosed ∧
    refusal (exec (.btShutdown true true) State.reset) = some .shutdownNotReady ∧
    refusal (exec (.btShutdown true true) (sending .txDrain 5 [] true)) = some .shutdownNotReady := by decide
/-- V-BT-16. -/
theorem test_btShutdown_releaseFails : after (fun t => (t.hb.btState, t.hb.lineOpen, t.hb.dirClaimed,
    t.hb.de, t.result)) (exec (.btShutdown false true) (sending .ready 5 [0x01] true))
    = some (.closed, false, false, false, some ⟨.btShutdown, .error .teardownError⟩) := by decide
/-- V-BT-15, V-BT-17. -/
theorem test_btShutdown_close : after (fun t => t.result) (exec (.btShutdown true true) ready)
    = some (some ⟨.btShutdown, .ok⟩) ∧
    after (fun t => (t.hb.uartQ, t.result)) (exec (.btShutdown true false) (sending .ready 5 [0x01] false))
    = some ([], some ⟨.btShutdown, .error .teardownError⟩) := by decide

/-! ## Frame receiver: V-RX rows, R131 to R135 -/

/-- V-RX-2. -/
theorem test_rxByte_first : after (fun t => (t.db.rxState, t.db.rxCnt, t.db.staging[0], t.db.dataReady,
    t.db.tmrArmed)) (exec (.rxByte 0xAB) booted) = some (.active, 1, 0xAB, false, true) := by decide
/-- V-RX-1, the last byte. -/
theorem test_rxByte_last : after (fun t => (t.db.rxState, t.db.rxCnt, t.db.staging[29], t.db.dataReady,
    t.db.tmrArmed)) (exec (.rxByte 0x1E) (receiving 29 3)) = some (.idle, 30, 0x1E, true, false) := by
  decide
/-- R134's example. -/
theorem test_tick_counts : after (fun t => (t.db.tmrCnt, t.db.rxState)) (exec .tick (receiving 15 2))
    = some (1, .active) := by decide
/-- R135's example. -/
theorem test_tick_expires : after (fun t => (t.db.rxState, t.db.rxCnt, t.db.dataReady, t.db.tmrArmed))
    (exec .tick (receiving 15 1)) = some (.idle, 15, false, false) := by decide
/-- R135, and R66: it never occurs alone. -/
theorem test_idleTimeout : after (fun t => (t.db.rxState, t.db.rxCnt, t.db.tmrArmed, t.db.raised))
    (exec .idleTimeout (raising .idleTimeout (receiving 7 0))) = some (.idle, 7, false, none) ∧
    refusal (exec .idleTimeout (receiving 7 2)) = some .timeoutNotRaised := by decide

/-! ## PWM engine: R151, R156, R163 -/

/-- Rows of R163. -/
theorem test_pwmLevel : pwmLevel 0 0 0 = false ∧ pwmLevel 1 0 0 = true ∧ pwmLevel 1 1 0 = false ∧
    pwmLevel 255 254 0 = true ∧ pwmLevel 255 255 0 = false ∧ pwmLevel 128 119 1 = true ∧
    pwmLevel 128 120 1 = false ∧ pwmLevel 128 247 1 = false ∧ pwmLevel 128 248 1 = true ∧
    pwmLevel 255 23 29 = false ∧ pwmLevel 1 24 29 = true ∧ pwmLevel 128 255 16 = true := by decide
/-- R151's example at phase 0x78, with the waiting frame left alone. -/
theorem test_pwmStep : after (fun t => (t.db.out[0], t.db.out[1], t.db.phase, t.db.dataReady))
    (exec .pwmStep (showing 0x78 0x80 true)) = some (true, false, 0x79, true) := by decide
/-- R156's example: old `active` against 255, then the transfer. -/
theorem test_pwmStep_boundary : after (fun t => (t.db.out[0], t.db.phase, t.db.active[29], t.db.dataReady))
    (exec .pwmStep (showing 0xFF 0xFF true)) = some (false, 0, 0x22, false) := by decide
/-- R156, and R66: it never occurs alone, not even at `phase = 0` with a frame waiting. -/
theorem test_transfer : after (fun t => (t.db.active[0], t.db.dataReady, t.db.rxIntEn))
    (exec .transfer (raising .transfer (showing 0 0xFF true))) = some (0x22, false, true) ∧
    refusal (exec .transfer (showing 0 0xFF true)) = some .transferNotRaised := by decide

/-! ## Reset and boot: R200, R204 -/

/-- R200's example. -/
theorem test_reset_db : after (fun t => (t.db.rxState, t.db.rxCnt, t.db.phase, t.db.out, t.db.devInit))
    (exec (.reset .db) (receiving 12 2)) = some (.idle, 0, 0, Vector.replicate 30 false, false) := by decide
theorem test_reset_hb : after (fun t => (t.hb.btState, t.hb.lineOpen, t.hb.de, t.hb.uartQ, t.result))
    (exec (.reset .hb) (sending .txDrain 5 [0x58] true)) = some (.closed, false, false, [], none) := by
  decide
theorem test_devInit : after (fun t => (t.db.devInit, t.db.rxIntEn, t.db.phase)) (exec .devInit State.reset)
    = some (true, true, 0) ∧ refusal (exec .devInit booted) = some .alreadyBooted := by decide
/-- R69. -/
theorem test_frame : refusal (exec (.frame 2 1 [0xAA] 0xC5) booted) = some .frameNamesNoEvent := by decide
/-- R170: the codes of the results. -/
theorem test_resultCodes : [ResultValue.ok, .error .validationError, .error .transportError,
    .error .configurationError, .error .framingError, .error .teardownError].map resultCode
    = [0, 1, 2, 3, 4, 5] := by decide

/-! ## Witnesses: for each obligation with hypotheses, a state and operands that meet them; a witness for
each clause, at a boundary of its range -/

theorem test_wit_CkVerifyComparesChecksum : 0 < ([0x40] : List Byte).length ∧ 7 < 8 := by decide

theorem test_wit_OneByteChangeIsDetected :
    (∀ c : Byte, Function.Injective fun b : Byte => c ^^^ b) ∧
    (∀ b : Byte, Function.Injective fun c : Byte => c ^^^ b) ∧
    (1 : Byte) ≠ ([0] : List Byte)[0] := by
  refine ⟨fun c x y h => ?_, fun b x y h => ?_, by decide⟩ <;> simpa using h

theorem test_wit_EncodeBuildsFrame : (List.replicate 64 (0 : Byte)).length ≤ 64 ∧
    64 < (List.replicate 65 (0 : Byte)).length := by decide

theorem test_wit_EncodedFrameLayout : 63 < (List.replicate 64 (0 : Byte)).length ∧
    (List.replicate 64 (0 : Byte)).length ≤ 64 ∧
    frameBytes 1 2 (List.replicate 64 0) = frameBytes 1 2 (List.replicate 64 0) :=
  ⟨by decide, by decide, rfl⟩

/-- The shortest frame is accepted, and so is the longest length; the empty sequence is not. -/
theorem test_wit_DecodeAcceptsExactlyFrames :
    (5 ≤ (frameBytes 1 2 []).length ∧ (frameBytes 1 2 [])[0]? = some 0x40 ∧
      ((frameBytes 1 2 []).getD 3 0).toNat ≤ 64 ∧
      (frameBytes 1 2 []).length = 5 + ((frameBytes 1 2 []).getD 3 0).toNat ∧
      (frameBytes 1 2 []).getLast? = some (ck (frameBytes 1 2 []).dropLast)) ∧
    ¬ 5 ≤ ([] : List Byte).length :=
  ⟨⟨by decide, rfl, by decide, by decide, rfl⟩, by decide⟩

theorem test_wit_DecodeInvertsEncode : ([] : List Byte).length ≤ 64 ∧
    ∃ t, exec (.frameDecode (frameBytes 1 2 [])) ready = .next t ∧
      t.result = some ⟨.decode, .decoded 1 2 []⟩ := by
  refine ⟨by decide, { ready with result := some ⟨.decode, .decoded 1 2 []⟩ }, ?_, rfl⟩
  simp [exec, execFrameDecode, decodeFrame, decodeFrameWith, frameBytes, frameWith, frameBody,
    State.complete]

theorem test_wit_FlippedFrameBitIsRejected : 4 < (frameBytes 1 2 []).length ∧
    ([] : List Byte).length ≤ 64 ∧ 7 < 8 := by decide

theorem test_wit_BtInitOpensLine : State.reset.hb.btState = .closed ∧ Claim.already ≠ .fail := by decide

theorem test_hostInv_ready : HostInv ready.hb := by
  constructor <;> simp [ready, HB.atReset]

/-- A closed host block other than the one at reset. -/
theorem test_hostInv_closed : HostInv { HB.atReset with txIdx := 5 } := by
  constructor <;> simp [HB.atReset]

theorem test_wit_BtInitFailureLeavesBlockAsBefore :
    HostInv { State.reset with hb := { HB.atReset with txIdx := 5 } }.hb ∧
    { State.reset with hb := { HB.atReset with txIdx := 5 } }.hb.btState = .closed ∧
    (false = false ∨ true = false ∨ Claim.ok = .fail) ∧ ready.hb.btState ≠ .closed :=
  ⟨test_hostInv_closed, rfl, .inl rfl, by decide⟩

theorem test_wit_SendOnlyWhenReady : State.reset.hb.btState ≠ .ready ∧ ready.hb.btState = .ready := by
  decide

theorem test_wit_SendRejectsLongPayload : ready.hb.btState = .ready ∧
    64 < (List.replicate 65 (0 : Byte)).length := by decide

theorem test_wit_SendLoadsFrame : ready.hb.btState = .ready ∧
    (List.replicate 64 (0 : Byte)).length ≤ 64 ∧ 68 < 69 ∧ 68 < 5 + 64 ∧ 5 + 63 ≤ 68 := by decide

theorem test_wit_TxAssertRaisesDirectionLine :
    (sending .txAssert 0 [] false).hb.btState = .txAssert ∧ ready.hb.btState ≠ .txAssert := by decide

theorem test_wit_TxWriteQueuesNextByte : (sending .txWrite 68 [] true).hb.txIdx < 69 ∧
    (sending .txWrite 68 [] true).hb.btState = .txWrite ∧ ready.hb.btState ≠ .txWrite := by decide

theorem test_wit_LineByteEmitsHeadOfQueue :
    (sending .ready 5 [0x40] false).hb.uartQ = 0x40 :: [] ∧ ready.hb.uartQ = [] := by decide

theorem test_wit_DrainWaitsForEmptyQueue :
    ((sending .txDrain 5 [] true).hb.btState = .txDrain ∧ (sending .txDrain 5 [] true).hb.uartQ = []) ∧
    ((sending .txDrain 5 [0x58] true).hb.btState = .txDrain ∧
      (sending .txDrain 5 [0x58] true).hb.uartQ ≠ [] ∧ Instr.lineByte ≠ .ioError ∧
      Instr.lineByte ≠ .reset .hb) ∧
    exec .lineByte (sending .txDrain 5 [0x58] true)
      = .next (nextOr (exec .lineByte (sending .txDrain 5 [0x58] true))) :=
  ⟨by decide, by decide, rfl⟩

theorem test_wit_TxReleaseEndsSendWithOk :
    (sending .txRelease 5 [] true).hb.btState = .txRelease ∧ ready.hb.btState ≠ .txRelease := by decide

theorem test_wit_IoErrorAbortsSend : (sending .txAssert 0 [] false).hb.btState = .txAssert ∧
    (sending .txWrite 0 [] true).hb.btState = .txWrite ∧
    (sending .txDrain 5 [] true).hb.btState = .txDrain ∧
    (sending .txRelease 5 [] true).hb.btState = .txRelease ∧ State.reset.hb.btState = .closed ∧
    ready.hb.btState = .ready := by decide

theorem test_wit_BtShutdownReleasesEverything : ready.hb.btState = .ready ∧
    State.reset.hb.btState ≠ .ready := by decide

/-- The whole of the shortest send. -/
theorem test_wit_SuccessfulSendEmitsExactlyItsFrame :
    (ready.hb.btState = .ready ∧ ready.hb.de = false ∧ ready.hb.uartQ = [] ∧
      ([] : List Byte).length ≤ 64) ∧
    (∀ i ∈ Instr.txAssert :: (writePairs 5 ++ [.txDrainDone]),
      i ≠ .txRelease ∧ i ≠ .ioError ∧ i ≠ .reset .hb) ∧
    after (fun t => t.hb.btState) (runEvents (.send 1 2 [] ::
      ((.txAssert :: (writePairs 5 ++ [.txDrainDone])) ++ [.txRelease])) ready) = some .ready := by
  decide

theorem test_wit_RunSendCompletes : (ready.hb.btState = .ready ∧ ready.hb.uartQ = [] ∧
    (List.replicate 64 (0 : Byte)).length ≤ 64) ∧ Quiescent ready ∧
    exec (.rxByte 1) { ready with db := booted.db }
      = .next (nextOr (exec (.rxByte 1) { ready with db := booted.db })) ∧
    ¬ Quiescent (nextOr (exec (.rxByte 1) { ready with db := booted.db })) := by
  refine ⟨by decide, ⟨rfl, .inl rfl, rfl, rfl⟩, rfl, fun h => ?_⟩
  exact absurd h.2.2.1 (by decide)

theorem test_wit_RxByteStoresAndCounts : (booted.db.rxIntEn = true ∧ booted.db.rxState = .idle) ∧
    ((receiving 28 3).db.rxCnt < 29 ∧ (receiving 28 3).db.rxState = .active ∧
      (receiving 28 3).db.rxIntEn = true) ∧
    ((receiving 29 3).db.rxCnt = 29 ∧ (receiving 29 3).db.rxState = .active ∧
      (receiving 29 3).db.rxIntEn = true) ∧ State.reset.db.rxIntEn = false := by decide

theorem test_wit_TickCountsDownAndTimesOut :
    ((receiving 1 2).db.tmrArmed = true ∧ 2 ≤ (receiving 1 2).db.tmrCnt) ∧
    ((receiving 1 1).db.tmrArmed = true ∧ (receiving 1 1).db.tmrCnt = 1) ∧
    booted.db.tmrArmed = false := by decide

/-- Raised, not raised, and raised by the last tick; and a receiver that meets the invariant. -/
theorem test_wit_IdleTimeoutDiscardsSilently :
    (raising .idleTimeout booted).db.raised = some .idleTimeout ∧
    booted.db.raised ≠ some .idleTimeout ∧
    exec .tick (receiving 1 1) = .next (nextOr (exec .tick (receiving 1 1))) ∧
    ((receiving 1 1).db.tmrArmed = true ∧ (receiving 1 1).db.tmrCnt = 1) ∧
    DeviceInv (receiving 29 1).db := by
  refine ⟨rfl, by decide, rfl, by decide, ?_⟩
  constructor <;> simp [receiving, booted, DB.atReset, Config.tIdle]

theorem test_wit_ThirtyBytesMakeOneFrame : booted.db.rxIntEn = true ∧ booted.db.rxState = .idle ∧
    (List.replicate 30 (0x11 : Byte)).length = 30 ∧ (1 ≤ 29 ∧ 29 < 30) := by decide

/-- Both clauses, at the boundary of each: a pause of exactly the timeout, and one tick less; the last
prefix of the second burst before the flag, in each. -/
theorem test_wit_PauseSeparatesFrames : booted.db.rxIntEn = true ∧ booted.db.rxState = .idle ∧
    1 ≤ (List.replicate 29 (0x11 : Byte)).length ∧ (List.replicate 29 (0x11 : Byte)).length ≤ 29 ∧
    (List.replicate 30 (0x22 : Byte)).length = 30 ∧ Config.tIdle ≤ Config.tIdle ∧
    Config.tIdlePred < Config.tIdle ∧ 29 < 30 ∧
    0 < 30 - (List.replicate 29 (0x11 : Byte)).length :=
  ⟨rfl, rfl, by decide, by decide, by decide, Nat.le_refl _, Nat.lt_succ_self _, by decide, by decide⟩

/-- A burst of one byte, and one of a whole frame. -/
theorem test_wit_BurstIsCutIntoThirties : booted.db.rxIntEn = true ∧ booted.db.rxState = .idle ∧
    (([0x11] : List Byte) ≠ [] ∧ ([0x11] : List Byte).length % 30 ≠ 0) ∧
    (List.replicate 30 (0x11 : Byte) ≠ [] ∧ (List.replicate 30 (0x11 : Byte)).length % 30 = 0) ∧
    Config.tIdle ≤ Config.tIdle := ⟨rfl, rfl, by decide, by decide, Nat.le_refl _⟩

theorem test_wit_WireFrameMisfitsReceiver : booted.db.rxIntEn = true ∧ booted.db.rxState = .idle ∧
    (List.replicate 30 (0x80 : Byte)).length = 30 := by decide

theorem test_wit_ByteAndTimeoutInEitherOrder : (receiving 28 1).db.rxCnt < 29 ∧
    (receiving 29 1).db.rxCnt = 29 ∧ (receiving 29 1).db.rxCnt < 30 ∧
    (receiving 29 1).db.rxIntEn = true ∧ (receiving 29 1).db.rxState = .active ∧
    (receiving 29 1).db.tmrArmed = true ∧ (receiving 29 1).db.tmrCnt = 1 := by decide

theorem test_wit_PwmStepComparesCountsTransfers : (showing 255 1 true).db.devInit = true ∧
    State.reset.db.devInit = false := by decide

theorem test_wit_DutyIsBrightness : (showing 0 255 true).db.devInit = true ∧
    (showing 0 255 true).db.phase = 0 := by decide

theorem test_wit_ChannelEdges : (1 : Byte) ≠ 0 ∧
    (pwmLevel 1 (0 - 1) 0 = false ∧ pwmLevel 1 0 0 = true) ∧
    (pwmLevel 1 (1 - 1) 0 = true ∧ pwmLevel 1 1 0 = false) := by decide

theorem test_wit_TransferCopiesWaitingFrame :
    ((raising .transfer (showing 0 1 true)).db.raised = some .transfer ∧
      (raising .transfer (showing 0 1 true)).db.dataReady = true) ∧
    ((raising .transfer (showing 0 1 false)).db.raised = some .transfer ∧
      (raising .transfer (showing 0 1 false)).db.dataReady = false) ∧
    (showing 255 1 true).db.raised ≠ some .transfer ∧
    ((showing 255 1 true).db.devInit = true ∧ (showing 255 1 true).db.phase = 255) ∧
    exec .pwmStep (showing 255 1 true) = .next (nextOr (exec .pwmStep (showing 255 1 true))) :=
  ⟨by decide, by decide, by decide, by decide, rfl⟩

theorem test_wit_ActiveChangesOnlyAsAWhole :
    exec .pwmStep (showing 255 1 true) = .next (nextOr (exec .pwmStep (showing 255 1 true))) := rfl

theorem test_deviceInv_booted : DeviceInv booted.db := by
  constructor <;> simp [booted, DB.atReset]

/-- Thirty bytes received. -/
theorem test_wit_WaitingFrameIsOneWholeFrame :
    DeviceInv booted.db ∧ booted.db.rxState = .idle ∧ booted.db.dataReady = false ∧
    after (fun t => t.db.dataReady) (runEvents (feed (List.replicate 30 0x11)) booted) = some true :=
  ⟨test_deviceInv_booted, rfl, rfl, by decide⟩

theorem test_wit_OnlyPwmStepWritesOutputs :
    exec .tick (receiving 1 2) = .next (nextOr (exec .tick (receiving 1 2))) ∧
    Instr.tick ≠ .pwmStep ∧ Instr.tick ≠ .reset .db := ⟨rfl, by decide, by decide⟩

/-- A dark device at the boundary with a frame waiting, whose step transfers it; and one after reset
whose first frame is received before any comparison. -/
theorem test_wit_DarkUntilFirstTransfer :
    ((showing 255 0 true).db.active = Vector.replicate 30 0 ∧
      (showing 255 0 true).db.out = Vector.replicate 30 false ∧
      after (fun t => t.db.active[0]) (exec .pwmStep (showing 255 0 true)) = some 0x22) ∧
    (booted.db.active = Vector.replicate 30 0 ∧ booted.db.out = Vector.replicate 30 false ∧
      booted.db.phase = 0 ∧ booted.db.raised = none ∧
      (feed (List.replicate 30 0x11) ++ [Instr.pwmStep]).count .pwmStep < 256 ∧
      after (fun t => t.db.dataReady)
        (runEvents (feed (List.replicate 30 0x11) ++ [.pwmStep]) booted) = some true) := by decide

theorem test_wit_PinsCarryTheirChannels :
    ∃ p : Config.Pin, ∀ i : Fin 30, Config.pinMap.pin i ≠ p := by
  refine ⟨⟨((List.finRange 30).map fun i => (Config.pinMap.pin i).port).sum + 1, 0⟩, fun i h => ?_⟩
  have hp : (Config.pinMap.pin i).port ∈
      (List.finRange 30).map fun i => (Config.pinMap.pin i).port :=
    List.mem_map.mpr ⟨i, List.mem_finRange i, rfl⟩
  have hle := List.single_le_sum (fun _ _ => Nat.zero_le _) _ hp
  rw [h] at hle
  simp only at hle
  omega

theorem test_wit_HandlersCommuteWithComparisons : (showing 254 1 true).db.devInit = true ∧
    (showing 254 1 true).db.rxIntEn = true ∧ (showing 254 1 true).db.phase ≠ 255 := by decide

theorem test_wit_ContextsWriteOnlyTheirRegisters :
    exec (.rxByte 1) booted = .next (nextOr (exec (.rxByte 1) booted)) ∧
    exec .tick booted = .next (nextOr (exec .tick booted)) ∧
    exec .pwmStep (showing 1 1 true) = .next (nextOr (exec .pwmStep (showing 1 1 true))) ∧
    (nextOr (exec .pwmStep (showing 1 1 true))).db.dataReady = true := ⟨rfl, rfl, rfl, by decide⟩

theorem test_wit_BlocksShareNothing :
    (exec .txAssert (sending .txAssert 0 [] false)
        = .next (nextOr (exec .txAssert (sending .txAssert 0 [] false))) ∧
      Instr.block .txAssert = some .hb) ∧
    exec .tick booted = .next (nextOr (exec .tick booted)) ∧ Instr.block .tick = some .db :=
  ⟨⟨rfl, rfl⟩, rfl, rfl⟩

/-- Two states that differ in the device. -/
theorem test_wit_HostCannotSeeDevice : Instr.block .txAssert = some .hb ∧
    (sending .txAssert 0 [] false).hb = { sending .txAssert 0 [] false with db := booted.db }.hb ∧
    (sending .txAssert 0 [] false).db ≠ { sending .txAssert 0 [] false with db := booted.db }.db ∧
    exec .txAssert (sending .txAssert 0 [] false)
      = .next (nextOr (exec .txAssert (sending .txAssert 0 [] false))) :=
  ⟨rfl, rfl, by decide, rfl⟩

theorem test_wit_WireCarriesDrivenBytes :
    exec .lineByte (sending .txDrain 5 [0x58] true)
      = .next (nextOr (exec .lineByte (sending .txDrain 5 [0x58] true))) ∧
    exec (.rxByte 0x58) { booted with bus := [0x58] }
      = .next (nextOr (exec (.rxByte 0x58) { booted with bus := [0x58] })) ∧
    exec .devInit State.reset = .next (nextOr (exec .devInit State.reset)) ∧
    exec .tick booted = .next (nextOr (exec .tick booted)) := ⟨rfl, rfl, rfl, rfl⟩

theorem test_wit_BusKeepsEmissionOrder :
    ({ sending .txDrain 5 [0x58] true with input := [0x1C] } : State).bus <:+
      onBus ({ sending .txDrain 5 [0x58] true with input := [0x1C] } : State).wire ∧
    after (fun t => t.bus) (Machine.step { sending .txDrain 5 [0x58] true with input := [0x1C] })
      = some [0x58] := by decide

theorem test_wit_DevInitBootsDevice : State.reset.db.devInit = false ∧ booted.db.devInit = true := by
  decide

/-- The state after two `RESET` events, whose unspecified registers hold free values. -/
theorem test_wit_AfterResetOnlyBootEvents : afterResets.hb.btState = .closed ∧
    afterResets.hb.uartQ = [] ∧ afterResets.db.tmrArmed = false ∧ afterResets.db.rxIntEn = false ∧
    afterResets.db.devInit = false ∧ afterResets.db.raised = none ∧
    exec .devInit afterResets = .next (nextOr (exec .devInit afterResets)) :=
  ⟨rfl, rfl, rfl, rfl, rfl, rfl, rfl⟩

theorem test_wit_UnknownCodesAndDisabledEventsHaveNoStep :
    (0x05 : Byte) ∉ eventCodes ∧ (0x40 : Byte) ∉ eventCodes ∧
    ¬ enabled (.send 1 2 []) State.reset ∧ ¬ enabled .txDrainDone (sending .txDrain 5 [0x58] true) :=
  ⟨by decide, by decide, by simp [enabled, State.reset, HB.atReset], by simp [enabled, sending]⟩

theorem test_sound_ready : Sound { ready with db := booted.db } :=
  ⟨test_deviceInv_booted, test_hostInv_ready⟩

theorem test_wit_EnabledEventsHaveAStep : Sound { ready with db := booted.db } ∧
    enabled (.send 1 2 []) { ready with db := booted.db } ∧
    enabled (.rxByte 1) { ready with db := booted.db } := ⟨test_sound_ready, rfl, rfl⟩

theorem test_wit_StepKeepsDeviceInvariant : DeviceInv ({ booted with input := [0x21, 0x11] } : State).db ∧
    after (fun t => t.db.rxCnt) (Machine.step { booted with input := [0x21, 0x11] }) = some 1 :=
  ⟨test_deviceInv_booted, by decide⟩

theorem test_wit_StepKeepsHostInvariant : HostInv ({ ready with input := [0x11, 1, 2, 0] } : State).hb ∧
    after (fun t => t.hb.btState) (Machine.step { ready with input := [0x11, 1, 2, 0] })
      = some .txAssert := ⟨test_hostInv_ready, by decide⟩

/-- An open line that stays open, and a closed one that a `BT_INIT` opens. -/
theorem test_wit_StepKeepsHostInvariant_cfg :
    (HostInv ready.hb ∧ after (fun t => t.hb.lineOpen) (exec (.send 1 2 []) ready) = some true) ∧
    HostInv { State.reset with hb := { HB.atReset with txIdx := 5 } }.hb ∧
    after (fun t => t.hb.lineOpen) (exec (.btInit 0 true true .ok)
      { State.reset with hb := { HB.atReset with txIdx := 5 } }) = some true :=
  ⟨⟨test_hostInv_ready, by decide⟩, test_hostInv_closed, by decide⟩

theorem test_wit_DirectionLineBracketsSend : Instr.send 1 2 [] ≠ .ioError ∧ HostInv ready.hb ∧
    HostClean ready.hb ∧ exec (.send 1 2 []) ready = .next (nextOr (exec (.send 1 2 []) ready)) := by
  refine ⟨by decide, test_hostInv_ready, ?_, rfl⟩
  constructor <;> simp [ready, HB.atReset]

/-- A `BT_INIT` that succeeds from a closed host block. -/
theorem test_wit_DirectionLineBracketsSend_init :
    HostInv { State.reset with hb := { HB.atReset with txIdx := 5 } }.hb ∧
    after (fun t => t.result) (exec (.btInit 9600 true true .ok)
      { State.reset with hb := { HB.atReset with txIdx := 5 } }) = some (some ⟨.btInit, .ok⟩) :=
  ⟨test_hostInv_closed, by decide⟩

theorem test_wit_SoundStatesNeverFault : Sound { ready with db := booted.db } := test_sound_ready

theorem test_wit_DecodeOfEncodeIsTheInstruction :
    (Instr.send 1 2 (List.replicate 255 0)).wf = true ∧ (Instr.btInit 0 true true .ok).wf = true ∧
    (Instr.frame 1 2 (List.replicate 64 0) 3).wf = true := by decide

theorem test_wit_DecodedBytesAreTheEncoding :
    decode [0x00, 0x00, 0x22] = .ok (.reset .hb, [0x22]) := by decide

theorem test_wit_StepRunsDecodedEvent :
    decode ({ booted with input := [0x22, 0x23] } : State).input = .ok (.tick, [0x23]) ∧
    Instr.wf .tick = true ∧ ({ booted with input := [0x22, 0x23] } : State).input
      = encode .tick ++ [0x23] := by decide

end Sys2Proof.Tests
end

section
/-! ## Checksum (spec/40_checksum.md) -/

namespace Sys2Proof.Machine

/-- R83: the checksum of the empty sequence is the initial value. -/
@[simp] theorem ck_nil : ck [] = Config.ckInit := rfl

/-- R81: one more byte at the end is one more `CK_STEP`, the running value its first argument. -/
theorem ck_append_singleton (bytes : List Byte) (b : Byte) :
    ck (bytes ++ [b]) = Config.ckStep (ck bytes) b :=
  List.foldl_concat Config.ckStep Config.ckInit b bytes

/-- R85: `CK_CREATE` has a step in every state, and it changes the result alone. -/
theorem exec_ckCreate (bytes : List Byte) (s : State) :
    exec (.ckCreate bytes) s = .next { s with result := some ⟨.ckCreate, .byte (ck bytes)⟩ } :=
  rfl

/-- Settles O1: the dispatch arm gives the exact next state, and `ck` obeys the two equations of a
left fold. -/
theorem ckCreateReturnsFold : Obligations.CkCreateReturnsFold :=
  ⟨exec_ckCreate, ck_nil, ck_append_singleton⟩

end Sys2Proof.Machine
end

section
/-! ## Frame codec (spec/41_frame_codec.md) -/

namespace Sys2Proof.Machine

/-! ### `ENCODE` -/

/-- R60, R91: the bytes of a frame in wire order. -/
theorem frameBytes_eq (source destination : Byte) (payload : List Byte) :
    frameBytes source destination payload
      = 0x40 :: destination :: source :: BitVec.ofNat 8 payload.length :: (payload ++
          [ck (0x40 :: destination :: source :: BitVec.ofNat 8 payload.length :: payload)]) :=
  rfl

theorem encodeFrame_of_le {payload : List Byte} (source destination : Byte)
    (h : payload.length ≤ 64) :
    encodeFrame source destination payload = .ok (frameBytes source destination payload) :=
  if_neg (Nat.not_lt.mpr h)

theorem encodeFrame_of_gt {payload : List Byte} (source destination : Byte)
    (h : 64 < payload.length) :
    encodeFrame source destination payload = .error .validationError :=
  if_pos h

/-- `ENCODE` returns the frame that was built, and changes the result alone. -/
theorem exec_frameEncode_of_ok {source destination : Byte} {payload frame : List Byte}
    (h : encodeFrame source destination payload = .ok frame) (s : State) :
    exec (.frameEncode source destination payload) s
      = .next { s with result := some ⟨.encode, .frame frame⟩ } := by
  simp only [exec, execFrameEncode, h, State.complete]

/-- `ENCODE` answers the error it met, and changes the result alone. -/
theorem exec_frameEncode_of_error {source destination : Byte} {payload : List Byte}
    {kind : ErrorKind} (h : encodeFrame source destination payload = .error kind) (s : State) :
    exec (.frameEncode source destination payload) s
      = .next { s with result := some ⟨.encode, .error kind⟩ } := by
  simp only [exec, execFrameEncode, h, State.raise, State.complete]

/-- Settles O4: the length test decides between the frame of `frameBytes_eq` and the error. -/
theorem encodeBuildsFrame : Obligations.EncodeBuildsFrame := by
  intro source destination payload s
  constructor
  · intro hle
    rw [exec_frameEncode_of_ok (encodeFrame_of_le source destination hle), frameBytes_eq]
  · intro hgt
    exact exec_frameEncode_of_error (encodeFrame_of_gt source destination hgt) s

/-! ### `DECODE` -/

/-- R93: what `DECODE` asks of a byte sequence, the checksum test in the words of R90: the last byte
is the checksum of every byte before it. -/
def IsFrame (bytes : List Byte) : Prop :=
  5 ≤ bytes.length ∧ bytes[0]? = some 0x40 ∧
    (bytes.getD 3 0).toNat ≤ 64 ∧ bytes.length = 5 + (bytes.getD 3 0).toNat ∧
    bytes.getLast? = some (ck bytes.dropLast)

/-- Inside a list the default of `getD` does not matter. -/
theorem getD_eq_iff_getElem?_eq_some {bytes : List Byte} {k : Nat} (hk : k < bytes.length)
    (d b : Byte) : bytes.getD k d = b ↔ bytes[k]? = some b := by
  simp [hk]

/-- In a sequence of the declared total length, the checked range is all but the last byte. -/
theorem take_checked_eq_dropLast {bytes : List Byte} {n : Nat} (h : bytes.length = 5 + n) :
    bytes.take (4 + n) = bytes.dropLast := by
  rw [List.dropLast_eq_take, show bytes.length - 1 = 4 + n by omega]

/-- In a sequence of the declared total length, the model's checksum test looks at the last byte. -/
theorem checksum_eq_getD_iff {bytes : List Byte} {n : Nat} (h : bytes.length = 5 + n) :
    ck (bytes.take (4 + n)) = bytes.getD (4 + n) 0 ↔
      bytes.getLast? = some (ck bytes.dropLast) := by
  rw [take_checked_eq_dropLast h, eq_comm, getD_eq_iff_getElem?_eq_some (by omega),
    List.getLast?_eq_getElem?, show bytes.length - 1 = 4 + n by omega]

/-- R93: a frame passes the five tests and gives its source, destination and payload. -/
theorem decodeFrame_of_isFrame {bytes : List Byte} (h : IsFrame bytes) :
    decodeFrame bytes = .ok (bytes.getD 2 0, bytes.getD 1 0, bytes.dropLast.drop 4) := by
  obtain ⟨hlen, hpreamble, hmax, htotal, hck⟩ := h
  have hpreamble' := (getD_eq_iff_getElem?_eq_some (by omega) 0 0x40).mpr hpreamble
  have hck' := (checksum_eq_getD_iff htotal).mpr hck
  unfold decodeFrame decodeFrameWith
  rw [if_neg (Nat.not_lt.mpr hlen), if_neg (not_not_intro hpreamble'),
    if_neg (Nat.not_lt.mpr hmax), if_neg (not_not_intro htotal), if_neg (not_not_intro hck'),
    take_checked_eq_dropLast htotal]

/-- R93: a sequence that is no frame fails one of the five tests, all with the same error. -/
theorem decodeFrame_of_not_isFrame {bytes : List Byte} (h : ¬ IsFrame bytes) :
    decodeFrame bytes = .error .framingError := by
  unfold decodeFrame decodeFrameWith
  split_ifs with hlen hpreamble hmax htotal hck
  case neg =>
    rw [not_not] at hpreamble htotal hck
    have hlen' : 5 ≤ bytes.length := Nat.not_lt.mp hlen
    exact absurd ⟨hlen', (getD_eq_iff_getElem?_eq_some (by omega) 0 0x40).mp hpreamble,
      Nat.not_lt.mp hmax, htotal, (checksum_eq_getD_iff htotal).mp hck⟩ h
  all_goals rfl

/-- `DECODE` returns the triple that was read, and changes the result alone. -/
theorem exec_frameDecode_of_ok {bytes payload : List Byte} {source destination : Byte}
    (h : decodeFrame bytes = .ok (source, destination, payload)) (s : State) :
    exec (.frameDecode bytes) s
      = .next { s with result := some ⟨.decode, .decoded source destination payload⟩ } := by
  simp only [exec, execFrameDecode, h, State.complete]

/-- `DECODE` answers the error it met, and changes the result alone. -/
theorem exec_frameDecode_of_error {bytes : List Byte} {kind : ErrorKind}
    (h : decodeFrame bytes = .error kind) (s : State) :
    exec (.frameDecode bytes) s = .next { s with result := some ⟨.decode, .error kind⟩ } := by
  simp only [exec, execFrameDecode, h, State.raise, State.complete]

/-- Settles O6: the five tests of the model are together `IsFrame`, and `DECODE` answers what the
tests do. -/
theorem decodeAcceptsExactlyFrames : Obligations.DecodeAcceptsExactlyFrames := by
  intro bytes s accepted
  constructor
  · intro hframe
    exact exec_frameDecode_of_ok (decodeFrame_of_isFrame hframe) s
  · intro hnot
    exact exec_frameDecode_of_error (decodeFrame_of_not_isFrame hnot) s

end Sys2Proof.Machine
end

section
/-! ## Bus transceiver (spec/42_bus_transceiver.md)

For each event, the lemma that says when it has a step is separate from `Laws/Exec.lean`'s lemma that
says which step it is. -/

namespace Sys2Proof.Machine

/-! ### `SEND` -/

/-- R104: outside `Ready`, `SEND` is refused. -/
theorem exec_send_of_ne_ready (source destination : Byte) (payload : List Byte) {s : State}
    (h : s.hb.btState ≠ .ready) :
    exec (.send source destination payload) s = .refused .sendNotReady :=
  if_neg h

/-- R105: what `ENCODE` refuses, `SEND` answers with the same error, and changes the result alone. -/
theorem exec_send_of_error {source destination : Byte} {payload : List Byte} {kind : ErrorKind}
    (henc : encodeFrame source destination payload = .error kind) {s : State}
    (h : s.hb.btState = .ready) :
    exec (.send source destination payload) s
      = .next { s with result := some ⟨.send, .error kind⟩ } := by
  simp only [exec, execSend, h, henc, if_true, State.raise, State.complete]

/-- R106: the frame `ENCODE` builds is loaded, and nothing is returned yet. -/
theorem exec_send_of_ok {source destination : Byte} {payload frame : List Byte}
    (henc : encodeFrame source destination payload = .ok frame) {s : State}
    (h : s.hb.btState = .ready) :
    exec (.send source destination payload) s = .next { s with
      hb := { s.hb.loadFrame frame with btState := .txAssert }, result := none } := by
  simp only [exec, execSend, h, henc, if_true, State.silent]

/-- R60, R65: a frame is five bytes longer than its payload. -/
@[simp] theorem frameBytes_length (source destination : Byte) (payload : List Byte) :
    (frameBytes source destination payload).length = 5 + payload.length := by
  simp [frameBytes_eq]
  omega

/-- R106: the loaded bytes stand at the front of the buffer. -/
theorem getElem?_eq_some_overlay_getElem {bytes : List Byte} (buf : Vector Byte 69) {j : Nat}
    (hj : j < 69) (hlt : j < bytes.length) : bytes[j]? = some (overlay buf bytes)[j] := by
  simp [overlay_getElem, hlt]

/-- R106: behind the loaded bytes the buffer is as before. -/
theorem overlay_getElem_of_le {bytes : List Byte} (buf : Vector Byte 69) {j : Nat} (hj : j < 69)
    (hle : bytes.length ≤ j) : (overlay buf bytes)[j] = buf[j] := by
  simp [overlay_getElem, hle]

/-- Settles O11: in `Ready` both answers of the encoder are followed by a step. -/
theorem sendOnlyWhenReady : Obligations.SendOnlyWhenReady := by
  intro source destination payload s
  refine ⟨exec_send_of_ne_ready source destination payload, fun hready => ?_⟩
  cases henc : encodeFrame source destination payload with
  | error kind => exact ⟨_, exec_send_of_error henc hready⟩
  | ok frame => exact ⟨_, exec_send_of_ok henc hready⟩

/-- Settles O12: the encoder's refusal of a long payload is the answer of `SEND`. -/
theorem sendRejectsLongPayload : Obligations.SendRejectsLongPayload :=
  fun source destination _ _ hready hlong =>
    exec_send_of_error (encodeFrame_of_gt source destination hlong) hready

/-- Settles O13: the new buffer is the old one overlaid with the encoded frame. -/
theorem sendLoadsFrame : Obligations.SendLoadsFrame := by
  intro source destination payload s hready hlen
  refine ⟨overlay s.hb.txbuf (frameBytes source destination payload), ?_, fun j hj => ⟨?_, ?_⟩⟩
  · rw [exec_send_of_ok (encodeFrame_of_le source destination hlen) hready, HB.loadFrame,
      frameBytes_length]
  · intro hlt
    exact getElem?_eq_some_overlay_getElem s.hb.txbuf hj (by rwa [frameBytes_length])
  · intro hle
    exact overlay_getElem_of_le s.hb.txbuf hj (by rwa [frameBytes_length])

/-! ### The internal steps of a send -/

/-- R107: in `TxAssert`. -/
theorem exec_txAssert_of_txAssert {s : State} (h : s.hb.btState = .txAssert) :
    exec .txAssert s
      = .next { s with hb := { s.hb with de := true, btState := .txWrite }, result := none } :=
  if_pos h

/-- R107: outside `TxAssert`. -/
theorem exec_txAssert_of_ne {s : State} (h : s.hb.btState ≠ .txAssert) :
    exec .txAssert s = .refused .notInTxAssert :=
  if_neg h

/-- Settles O14: the two branches of the enabling test. -/
theorem txAssertRaisesDirectionLine : Obligations.TxAssertRaisesDirectionLine :=
  fun _ => ⟨exec_txAssert_of_txAssert, exec_txAssert_of_ne⟩

/-- R108: in `TxWrite` a step is made as long as the index is inside the buffer. -/
theorem exec_txWrite_exists_next {s : State} (h : s.hb.btState = .txWrite)
    (inRange : s.hb.txIdx < 69) : ∃ t, exec .txWrite s = .next t :=
  ⟨_, (if_pos h).trans (dif_pos inRange)⟩

/-- R108: outside `TxWrite`. -/
theorem exec_txWrite_of_ne {s : State} (h : s.hb.btState ≠ .txWrite) :
    exec .txWrite s = .refused .notInTxWrite :=
  if_neg h

/-- Settles O15: the step exists while the index is inside `txbuf`, and `execTxWrite_next` says which
it is. -/
theorem txWriteQueuesNextByte : Obligations.TxWriteQueuesNextByte := by
  intro s
  refine ⟨fun inRange hwrite => ?_, exec_txWrite_of_ne⟩
  obtain ⟨t, ht⟩ := exec_txWrite_exists_next hwrite inRange
  obtain ⟨-, _, rfl⟩ := execTxWrite_next ht
  exact ht

/-- R110: in `TxDrain` with an empty queue. -/
theorem exec_txDrainDone_of_drained {s : State} (hdrain : s.hb.btState = .txDrain)
    (hempty : s.hb.uartQ = []) :
    exec .txDrainDone s
      = .next { s with hb := { s.hb with btState := .txRelease }, result := none } :=
  if_pos ⟨hdrain, (drained_iff _).mpr hempty⟩

/-- R110: outside `TxDrain`, or while bytes are queued. -/
theorem exec_txDrainDone_of_not_drained {s : State}
    (h : s.hb.btState ≠ .txDrain ∨ s.hb.uartQ ≠ []) :
    exec .txDrainDone s = .refused .notDrained := by
  refine if_neg ?_
  rw [drained_iff]
  tauto

/-- R111: in `TxRelease`. -/
theorem exec_txRelease_of_txRelease {s : State} (h : s.hb.btState = .txRelease) :
    exec .txRelease s = .next { s with
      hb := { s.hb with de := false, btState := .ready }
      result := some ⟨.send, .ok⟩ } :=
  if_pos h

/-- R111: outside `TxRelease`. -/
theorem exec_txRelease_of_ne {s : State} (h : s.hb.btState ≠ .txRelease) :
    exec .txRelease s = .refused .notInTxRelease :=
  if_neg h

/-- Settles O18: the two branches of the enabling test. -/
theorem txReleaseEndsSendWithOk : Obligations.TxReleaseEndsSendWithOk :=
  fun _ => ⟨exec_txRelease_of_txRelease, exec_txRelease_of_ne⟩

/-! ### `LINE_BYTE` and `IO_ERROR` -/

/-- R109: the head of the queue goes to the wire. -/
theorem exec_lineByte_of_cons {s : State} {b : Byte} {rest : List Byte}
    (h : s.hb.uartQ = b :: rest) :
    exec .lineByte s = .next { s with
      hb := { s.hb with uartQ := rest }
      wire := s.wire ++ [⟨b, s.hb.de⟩]
      bus := busAfter s.bus b s.hb.de
      result := none } := by
  simp only [exec, execLineByte, h, State.emit, State.silent]

/-- R109: with an empty queue. -/
theorem exec_lineByte_of_nil {s : State} (h : s.hb.uartQ = []) :
    exec .lineByte s = .refused .uartEmpty := by
  simp only [exec, execLineByte, h]

/-- Settles O16: the head and tail of the queue decide. -/
theorem lineByteEmitsHeadOfQueue : Obligations.LineByteEmitsHeadOfQueue :=
  fun _ => ⟨fun _ _ hq => ⟨_, exec_lineByte_of_cons hq⟩, exec_lineByte_of_nil⟩

/-- R112: in a send. -/
theorem exec_ioError_exists_next {s : State} (h : s.hb.sending = true) :
    ∃ t, exec .ioError s = .next t :=
  ⟨_, if_pos h⟩

/-- R112: with no send in progress. -/
theorem exec_ioError_of_not_sending {s : State} (h : ¬ s.hb.sending = true) :
    exec .ioError s = .refused .noSendInProgress :=
  if_neg h

/-- Settles O19: `execIoError_next` gives the step of a send in progress, whose queue is empty or kept
as the draw says. -/
theorem ioErrorAbortsSend : Obligations.IoErrorAbortsSend := by
  intro s
  constructor
  · intro hsending
    obtain ⟨t, ht⟩ := exec_ioError_exists_next ((sending_iff _).mpr hsending)
    obtain ⟨-, rfl⟩ := execIoError_next ht
    exact ⟨_, _, _, (ite_eq_or_eq _ _ _).symm, ht⟩
  · intro hidle
    refine exec_ioError_of_not_sending ?_
    rw [sending_iff]
    rcases hidle with h | h <;> simp [h]

/-! ### `BT_SHUTDOWN` -/

/-- R114: in `Ready` a teardown ends, with `Ok` or with an error. -/
theorem exec_btShutdown_exists_next (releaseOk closeOk : Bool) {s : State}
    (h : s.hb.btState = .ready) : ∃ t, exec (.btShutdown releaseOk closeOk) s = .next t := by
  simp only [exec, execBtShutdown, h, if_true]
  split <;> exact ⟨_, rfl⟩

/-- R114: outside `Ready`. -/
theorem exec_btShutdown_of_ne_ready (releaseOk closeOk : Bool) {s : State}
    (h : s.hb.btState ≠ .ready) :
    exec (.btShutdown releaseOk closeOk) s = .refused .shutdownNotReady :=
  if_neg h

/-- Settles O20: in `Ready` the step exists, and `execBtShutdown_next` says which it is. -/
theorem btShutdownReleasesEverything : Obligations.BtShutdownReleasesEverything := by
  intro releaseOk closeOk s
  refine ⟨fun hready => ?_, exec_btShutdown_of_ne_ready releaseOk closeOk⟩
  obtain ⟨t, ht⟩ := exec_btShutdown_exists_next releaseOk closeOk hready
  obtain ⟨-, rfl⟩ := execBtShutdown_next ht
  exact ht

/-! ### Draining -/

/-- R10: an event that is not one of the host block leaves every register of the host block. -/
theorem exec_hb_of_block_ne_hb {i : Instr} {s t : State} (hblock : i.block ≠ some .hb)
    (h : exec i s = .next t) : t.hb = s.hb := by
  cases i with
  | reset block =>
    cases block with
    | hb => exact absurd rfl hblock
    | db => cases h; rfl
  | devInit => obtain ⟨-, rfl⟩ := execDevInit_next h; rfl
  | rxByte b => obtain ⟨-, d, -, rfl, -⟩ := execRxByte_next h; rfl
  | tick => cases h; rfl
  | pwmStep => obtain ⟨-, ⟨-, rfl⟩ | ⟨-, -, rfl⟩ | ⟨-, -, rfl⟩⟩ := execPwmStep_next h <;> rfl
  | idleTimeout => obtain ⟨-, rfl⟩ := execIdleTimeout_next h; rfl
  | transfer => obtain ⟨-, ⟨-, rfl⟩ | ⟨-, rfl⟩⟩ := execTransfer_next h <;> rfl
  | frame => cases h
  | _ => exact absurd rfl hblock

/-- R110: in `TxDrain` with bytes queued, the only events of the host block with a step are the four
operations without state, `LINE_BYTE`, `IO_ERROR` and a reset; all but the last two keep the
sequencer and the direction line. -/
theorem exec_host_keeps_drain {i : Instr} {s t : State} (hblock : i.block = some .hb)
    (hdrain : s.hb.btState = .txDrain) (hqueued : s.hb.uartQ ≠ []) (hio : i ≠ .ioError)
    (hreset : i ≠ .reset .hb) (h : exec i s = .next t) :
    t.hb.btState = .txDrain ∧ t.hb.de = s.hb.de := by
  cases i with
  | reset block =>
    obtain rfl : block = .hb := Option.some.inj hblock
    exact absurd rfl hreset
  | ckCreate => obtain rfl := execCkCreate_next h; exact ⟨hdrain, rfl⟩
  | ckVerify => obtain rfl := execCkVerify_next h; exact ⟨hdrain, rfl⟩
  | frameEncode => obtain rfl := execFrameEncode_next h; exact ⟨hdrain, rfl⟩
  | frameDecode => obtain rfl := execFrameDecode_next h; exact ⟨hdrain, rfl⟩
  | lineByte => obtain ⟨b, rest, -, rfl⟩ := execLineByte_next h; exact ⟨hdrain, rfl⟩
  | btInit => simp [(execBtInit_next h).1] at hdrain
  | send => simp [(execSend_next h).1] at hdrain
  | btShutdown => simp [(execBtShutdown_next h).1] at hdrain
  | txAssert => simp [(execTxAssert_next h).1] at hdrain
  | txWrite => simp [(execTxWrite_next h).1] at hdrain
  | txRelease => simp [(execTxRelease_next h).1] at hdrain
  | txDrainDone =>
    obtain ⟨-, hempty, -⟩ := execTxDrainDone_next h
    exact absurd hempty hqueued
  | ioError => exact absurd rfl hio
  | _ => cases hblock

/-- Settles O17: the enabling test of `TX_DRAIN_DONE`; meanwhile the events of the device leave the
host block alone, and those of the host block keep the drain. -/
theorem drainWaitsForEmptyQueue : Obligations.DrainWaitsForEmptyQueue := by
  refine ⟨fun s => ⟨exec_txDrainDone_of_drained, exec_txDrainDone_of_not_drained⟩, ?_⟩
  intro i s t hdrain hqueued hio hreset h
  by_cases hblock : i.block = some .hb
  · exact exec_host_keeps_drain hblock hdrain hqueued hio hreset h
  · rw [exec_hb_of_block_ne_hb hblock h]
    exact ⟨hdrain, rfl⟩

end Sys2Proof.Machine
end

section
/-! ## Frame receiver (spec/43_frame_receiver.md) -/

namespace Sys2Proof.Machine

/-! ### `RX_BYTE` -/

/-- R131: with the interrupt source enabled, the handler's new device block is the step's, and the
byte is taken off the bus. -/
theorem exec_rxByte_of_ok {b : Byte} {s : State} {d : DB} (hen : s.db.rxIntEn = true)
    (h : s.db.receive b = .ok d) :
    exec (.rxByte b) s = .next { s with db := d, bus := busTake s.bus b, result := none } := by
  simp only [exec, execRxByte, hen, if_true, enterInterrupt_eq, h, returnFromInterrupt_eq,
    State.silent]

/-- R131: with the interrupt source disabled. -/
theorem exec_rxByte_of_disabled (b : Byte) {s : State} (h : s.db.rxIntEn = false) :
    exec (.rxByte b) s = .refused .rxInterruptDisabled :=
  if_neg (Bool.eq_false_iff.mp h)

/-- Settles O23: each row of R132 is an answer of the handler, which the step passes on. -/
theorem rxByteStoresAndCounts : Obligations.RxByteStoresAndCounts := by
  intro b s
  refine ⟨fun hen => ⟨busTake s.bus b, ?first, ?middle, ?last⟩, exec_rxByte_of_disabled b⟩
  case first =>
    intro hidle
    exact exec_rxByte_of_ok hen (receive_idle s.db b hidle)
  case middle =>
    intro hcnt hactive
    exact exec_rxByte_of_ok hen (receive_middle s.db b hactive hcnt)
  case last =>
    intro hcnt hactive
    exact exec_rxByte_of_ok hen (receive_last s.db b hactive hcnt)

/-! ### `TICK` -/

/-- R134: `TICK` has a step in every state, one period of the idle timer. -/
theorem exec_tick (s : State) :
    exec .tick s = .next { s with db := s.db.countDown, result := none } :=
  rfl

/-- Settles O24: what one period does to a timer that runs on, expires or is stopped. -/
theorem tickCountsDownAndTimesOut : Obligations.TickCountsDownAndTimesOut := by
  intro s
  refine ⟨?running, ?expires, ?stopped⟩
  case running =>
    intro harmed hcnt
    rw [exec_tick, countDown_running s.db harmed hcnt]
  case expires =>
    intro harmed hcnt
    rw [exec_tick, countDown_expires s.db harmed hcnt.le]
  case stopped =>
    intro hstopped
    rw [exec_tick, countDown_stopped s.db hstopped]

end Sys2Proof.Machine
end

section
/-! ## PWM engine (spec/44_pwm_engine.md) -/

namespace Sys2Proof.Machine

/-! ### `PWM_STEP` -/

/-- R151: after `DEV_INIT` there is a step in every state. -/
theorem exec_pwmStep_exists_next {s : State} (h : s.db.devInit = true) :
    ∃ t, exec .pwmStep s = .next t :=
  ⟨_, if_pos h⟩

/-- R151, R156: the three cases of `execPwmStep_next` (away from the boundary, at the boundary with no
frame waiting, at the boundary with a frame waiting) as one next state. -/
theorem exec_pwmStep_of_devInit {s : State} (h : s.db.devInit = true) :
    exec .pwmStep s = .next { s with
      db := { s.db with
        out := pwmOutputs s.db.active s.db.phase
        phase := s.db.phase + 1
        active := if s.db.phase = 255 ∧ s.db.dataReady = true then s.db.staging else s.db.active
        dataReady := if s.db.phase = 255 then false else s.db.dataReady
        rxIntEn := if s.db.phase = 255 ∧ s.db.dataReady = true then true else s.db.rxIntEn
        raised := if s.db.phase = 255 then none else s.db.raised }
      result := none } := by
  obtain ⟨t, ht⟩ := exec_pwmStep_exists_next h
  rw [ht]
  obtain ⟨-, ⟨hphase, rfl⟩ | ⟨hphase, hready, rfl⟩ | ⟨hphase, hready, rfl⟩⟩ := execPwmStep_next ht
  · simp only [hphase, false_and, if_false]
  · simp [hphase, hready]
  · simp [hphase, hready]

/-- R151: before `DEV_INIT`. -/
theorem exec_pwmStep_of_not_devInit {s : State} (h : s.db.devInit = false) :
    exec .pwmStep s = .refused .mainLoopNotRunning :=
  if_neg (Bool.eq_false_iff.mp h)

/-- R151, R163: one output bit as a comparison of numbers. -/
theorem pwmOutputs_getElem_iff (active : Vector Byte 30) (phase : BitVec 8) (i : Fin 30) :
    (pwmOutputs active phase)[i] = true ↔ (phase.toNat + 8 * i.val) % 256 < (active[i]).toNat := by
  rw [pwmOutputs_getElem, pwmLevel_iff]

/-- Settles O31: the levels are the outputs for the old `phase` and the old `active`, and the two
branches of the enabling test give the step and the refusal. -/
theorem pwmStepComparesCountsTransfers : Obligations.PwmStepComparesCountsTransfers :=
  fun s => ⟨fun hinit => ⟨pwmOutputs s.db.active s.db.phase, exec_pwmStep_of_devInit hinit,
    pwmOutputs_getElem_iff s.db.active s.db.phase⟩, exec_pwmStep_of_not_devInit⟩

end Sys2Proof.Machine
end

section
/-! ## Exceptions (spec/60_exceptions.md) -/

namespace Sys2Proof.Machine

/-! ### One period of the idle timer leaves the collected bytes and the flag alone -/

@[simp] theorem countDown_rxCnt (d : DB) : d.countDown.rxCnt = d.rxCnt := by rw [countDown_eq]
@[simp] theorem countDown_staging (d : DB) : d.countDown.staging = d.staging := by rw [countDown_eq]
@[simp] theorem countDown_dataReady (d : DB) : d.countDown.dataReady = d.dataReady := by
  rw [countDown_eq]
@[simp] theorem countDown_rxIntEn (d : DB) : d.countDown.rxIntEn = d.rxIntEn := by rw [countDown_eq]

/-- R134: the count goes down by one, to 0 at the last tick, while the timer is armed. -/
theorem countDown_tmrCnt (d : DB) (harmed : d.tmrArmed = true) :
    d.countDown.tmrCnt = d.tmrCnt - 1 := by
  by_cases hcnt : 2 ≤ d.tmrCnt
  · rw [countDown_running d harmed hcnt]
  · rw [countDown_expires d harmed (by omega)]
    exact (Nat.sub_eq_zero_of_le (by omega)).symm

/-- R134, R135: an armed timer stays armed exactly when the tick is not its last. -/
theorem countDown_tmrArmed_iff (d : DB) (harmed : d.tmrArmed = true) :
    d.countDown.tmrArmed = true ↔ 2 ≤ d.tmrCnt := by
  by_cases hcnt : 2 ≤ d.tmrCnt
  · simp [countDown_running d harmed hcnt, harmed, hcnt]
  · simp [countDown_expires d harmed (by omega), hcnt]

/-- R134, R135: with the timer armed, a frame in progress survives the tick exactly when it is not the
timer's last. -/
theorem countDown_active_iff (d : DB) (harmed : d.tmrArmed = true) (hactive : d.rxState = .active) :
    d.countDown.rxState = .active ↔ 2 ≤ d.tmrCnt := by
  by_cases hcnt : 2 ≤ d.tmrCnt
  · simp [countDown_running d harmed hcnt, hactive, hcnt]
  · simp [countDown_expires d harmed (by omega), hcnt]

/-! ### The two orders of a byte and a tick -/

/-- R176, byte first: the tick counts down what the handler left. -/
theorem runEvents_rxByte_tick {b : Byte} {s : State} {d : DB} (hen : s.db.rxIntEn = true)
    (h : s.db.receive b = .ok d) : runEvents [.rxByte b, .tick] s
      = .next { s with db := d.countDown, bus := busTake s.bus b, result := none } := by
  rw [runEvents_cons_next (exec_rxByte_of_ok hen h), runEvents_cons_next (exec_tick _),
    runEvents_nil]

/-- R176, tick first: the handler meets what the tick left. -/
theorem runEvents_tick_rxByte {b : Byte} {s : State} {d : DB} (hen : s.db.rxIntEn = true)
    (h : s.db.countDown.receive b = .ok d) : runEvents [.tick, .rxByte b] s
      = .next { s with db := d, bus := busTake s.bus b, result := none } := by
  rw [runEvents_cons_next (exec_tick s),
    runEvents_cons_next (exec_rxByte_of_ok (by rwa [countDown_rxIntEn]) h), runEvents_nil]

/-- Settles O30: byte first, the tick counts down the timer that the byte reloaded, or finds it stopped
by the last byte of the frame; tick first, the byte finds the receiver Idle. -/
theorem byteAndTimeoutInEitherOrder : Obligations.ByteAndTimeoutInEitherOrder := by
  intro b s hrange hen hactive harmed hcnt
  refine ⟨?byteFirst, ?timeoutFirst⟩
  case byteFirst =>
    by_cases hmiddle : s.db.rxCnt < 29
    · have htick := runEvents_rxByte_tick hen (receive_middle s.db b hactive hmiddle)
      exact ⟨_, htick, countDown_rxCnt _, countDown_staging _, fun _ => ⟨countDown_tmrCnt _ rfl,
        countDown_active_iff _ rfl hactive, countDown_tmrArmed_iff _ rfl⟩,
        fun hlast => absurd hlast hmiddle.ne⟩
    · have hlast : s.db.rxCnt = 29 := by omega
      have htick := runEvents_rxByte_tick hen (receive_last s.db b hactive hlast)
      rw [countDown_stopped _ rfl] at htick
      exact ⟨_, htick, by simp [hlast], by simp [hlast], fun h => absurd h hmiddle,
        fun _ => ⟨rfl, rfl⟩⟩
  case timeoutFirst =>
    have hidle : s.db.countDown.rxState = .idle := by
      rw [countDown_expires s.db harmed hcnt.le]
    exact ⟨_, runEvents_tick_rxByte hen (receive_idle _ b hidle), rfl, rfl,
      congrArg (·.set 0 b) (countDown_staging s.db), rfl, rfl⟩

end Sys2Proof.Machine
end

section
/-! ## Reset and hazards (spec/70_reset_and_hazards.md) -/

namespace Sys2Proof.Machine

/-! ### `DEV_INIT` -/

/-- R204: before the device has booted, the two flags are set and no byte is left waiting. -/
theorem exec_devInit_of_not_devInit {s : State} (h : s.db.devInit = false) :
    exec .devInit s = .next { s with
      db := { s.db with devInit := true, rxIntEn := true }, bus := [], result := none } :=
  if_pos h

/-- R204: the main loop is entered once. -/
theorem exec_devInit_of_devInit {s : State} (h : s.db.devInit = true) :
    exec .devInit s = .refused .alreadyBooted :=
  if_neg (Bool.ne_false_iff.mpr h)

/-- Settles O48: the two branches of the enabling test; the bus is left empty. -/
theorem devInitBootsDevice : Obligations.DevInitBootsDevice :=
  fun _ => ⟨fun hoff => ⟨[], exec_devInit_of_not_devInit hoff⟩, exec_devInit_of_devInit⟩

end Sys2Proof.Machine
end

section
/-! ## What an event does

One relation with a row for every way an event can be taken: its enabling condition and its next
state.  `exec_next_iff` ties it to the model, in both directions; the statements about every event
are case splits over its rows. -/

namespace Sys2Proof.Machine

/-- `EventStep s i t`: in state `s` the event `i` is taken, and `t` is the state after it. -/
inductive EventStep (s : State) : Instr → State → Prop
  /-- R200, host block. -/
  | resetHost : EventStep s (.reset .hb) { s with
      hb := HB.resetWith s.hostDraws, hostDraws := s.hostDraws + 1, result := none }
  /-- R200, device block. -/
  | resetDevice : EventStep s (.reset .db) { s with
      db := DB.resetWith s.deviceDraws, deviceDraws := s.deviceDraws + 1, result := none }
  /-- R85. -/
  | ckCreate (bytes : List Byte) : EventStep s (.ckCreate bytes)
      { s with result := some ⟨.ckCreate, .byte (ck bytes)⟩ }
  /-- R86. -/
  | ckVerify (bytes : List Byte) (expected : Byte) : EventStep s (.ckVerify bytes expected)
      { s with result := some ⟨.ckVerify, .bit (decide (ck bytes = expected))⟩ }
  /-- R91, a payload that fits. -/
  | encoded {source destination : Byte} {payload frame : List Byte}
      (built : encodeFrame source destination payload = .ok frame) :
      EventStep s (.frameEncode source destination payload)
        { s with result := some ⟨.encode, .frame frame⟩ }
  /-- R91, a payload that does not. -/
  | encodeFails {source destination : Byte} {payload : List Byte} {kind : ErrorKind}
      (failed : encodeFrame source destination payload = .error kind) :
      EventStep s (.frameEncode source destination payload)
        { s with result := some ⟨.encode, .error kind⟩ }
  /-- R93, a frame. -/
  | decoded {bytes : List Byte} {source destination : Byte} {payload : List Byte}
      (read : decodeFrame bytes = .ok (source, destination, payload)) :
      EventStep s (.frameDecode bytes)
        { s with result := some ⟨.decode, .decoded source destination payload⟩ }
  /-- R93, no frame. -/
  | decodeFails {bytes : List Byte} {kind : ErrorKind} (failed : decodeFrame bytes = .error kind) :
      EventStep s (.frameDecode bytes) { s with result := some ⟨.decode, .error kind⟩ }
  /-- R102, the line opened. -/
  | btInitOpens (baud : Nat) {claim : Claim} (closed : s.hb.btState = .closed)
      (claimed : claim ≠ .fail) : EventStep s (.btInit baud true true claim) { s with
        hb := { s.hb with lineOpen := true, dirClaimed := true, de := false, btState := .ready,
                          cfg := LineConfig.standard baud }
        result := some ⟨.btInit, .ok⟩ }
  /-- R102, no line to configure. -/
  | btInitOpenFails (baud : Nat) (cfgOk : Bool) (claim : Claim) (closed : s.hb.btState = .closed) :
      EventStep s (.btInit baud false cfgOk claim)
        { s with result := some ⟨.btInit, .error .configurationError⟩ }
  /-- R102, the line closed again. -/
  | btInitCloses (baud : Nat) {cfgOk : Bool} {claim : Claim} (closed : s.hb.btState = .closed)
      (failed : cfgOk = false ∨ claim = .fail) :
      EventStep s (.btInit baud true cfgOk claim) { s with
        hb := { s.hb with lineOpen := false }
        result := some ⟨.btInit, .error .configurationError⟩ }
  /-- R106. -/
  | sendAccepted (source destination : Byte) {payload : List Byte} (ready : s.hb.btState = .ready)
      (fits : payload.length ≤ 64) : EventStep s (.send source destination payload) { s with
        hb := { s.hb with
          txbuf := overlay s.hb.txbuf (frameBytes source destination payload)
          txLen := (frameBytes source destination payload).length
          txIdx := 0
          btState := .txAssert }
        result := none }
  /-- R105. -/
  | sendRejected (source destination : Byte) {payload : List Byte} (ready : s.hb.btState = .ready)
      (long : 64 < payload.length) : EventStep s (.send source destination payload)
        { s with result := some ⟨.send, .error .validationError⟩ }
  /-- R114. -/
  | btShutdown (releaseOk closeOk : Bool) (ready : s.hb.btState = .ready) :
      EventStep s (.btShutdown releaseOk closeOk) { s with
        hb := { s.hb with
          de := if s.hb.dirClaimed then false else s.hb.de
          dirClaimed := false
          lineOpen := false
          uartQ := []
          btState := .closed }
        result := some ⟨.btShutdown,
          if (s.hb.dirClaimed = true ∧ releaseOk = false) ∨ closeOk = false
          then .error .teardownError else .ok⟩ }
  /-- R107. -/
  | txAssert (inAssert : s.hb.btState = .txAssert) : EventStep s .txAssert
      { s with hb := { s.hb with de := true, btState := .txWrite }, result := none }
  /-- R108. -/
  | txWrite (inWrite : s.hb.btState = .txWrite) (inRange : s.hb.txIdx < 69) :
      EventStep s .txWrite { s with
        hb := { s.hb with
          uartQ := s.hb.uartQ ++ [s.hb.txbuf[s.hb.txIdx]]
          txIdx := s.hb.txIdx + 1
          btState := if s.hb.txIdx + 1 = s.hb.txLen then .txDrain else .txWrite }
        result := none }
  /-- R110. -/
  | txDrainDone (inDrain : s.hb.btState = .txDrain) (drained : s.hb.uartQ = []) :
      EventStep s .txDrainDone { s with hb := { s.hb with btState := .txRelease }, result := none }
  /-- R111. -/
  | txRelease (inRelease : s.hb.btState = .txRelease) : EventStep s .txRelease
      { s with hb := { s.hb with de := false, btState := .ready }, result := some ⟨.send, .ok⟩ }
  /-- R109. -/
  | lineByte {b : Byte} {rest : List Byte} (queued : s.hb.uartQ = b :: rest) :
      EventStep s .lineByte { s with
        hb := { s.hb with uartQ := rest }
        wire := s.wire ++ [⟨b, s.hb.de⟩]
        bus := busAfter s.bus b s.hb.de
        result := none }
  /-- R112. -/
  | ioError (sending : s.hb.sending = true) : EventStep s .ioError { s with
      hb := { s.hb with
        btState := .ready
        de := Config.drawDE s.hostDraws
        uartQ := if Config.drawDropQueue s.hostDraws then [] else s.hb.uartQ }
      result := some ⟨.send, .error .transportError⟩
      hostDraws := s.hostDraws + 1 }
  /-- R204. -/
  | devInit (off : s.db.devInit = false) : EventStep s .devInit
      { s with db := { s.db with devInit := true, rxIntEn := true }, bus := [], result := none }
  /-- R132, first row. -/
  | rxFirst (b : Byte) (enabled : s.db.rxIntEn = true) (idle : s.db.rxState = .idle) :
      EventStep s (.rxByte b) { s with
        db := { s.db with rxState := .active, rxCnt := 1, dataReady := false,
                          staging := s.db.staging.set 0 b, tmrArmed := true,
                          tmrCnt := Config.tIdle }
        bus := busTake s.bus b
        result := none }
  /-- R132, second row. -/
  | rxMiddle (b : Byte) (enabled : s.db.rxIntEn = true) (active : s.db.rxState = .active)
      (count : s.db.rxCnt < 29) : EventStep s (.rxByte b) { s with
        db := { s.db with rxCnt := s.db.rxCnt + 1, staging := s.db.staging.set s.db.rxCnt b,
                          tmrArmed := true, tmrCnt := Config.tIdle }
        bus := busTake s.bus b
        result := none }
  /-- R132, third row. -/
  | rxLast (b : Byte) (enabled : s.db.rxIntEn = true) (active : s.db.rxState = .active)
      (count : s.db.rxCnt = 29) : EventStep s (.rxByte b) { s with
        db := { s.db with rxState := .idle, rxCnt := 30, dataReady := true,
                          staging := s.db.staging.set 29 b, tmrArmed := false,
                          tmrCnt := Config.tIdle }
        bus := busTake s.bus b
        result := none }
  /-- R134. -/
  | tick : EventStep s .tick { s with db := s.db.countDown, result := none }
  /-- R151, away from the cycle boundary. -/
  | pwmCounts (booted : s.db.devInit = true) (inside : s.db.phase ≠ 255) : EventStep s .pwmStep
      { s with
        db := { s.db with out := pwmOutputs s.db.active s.db.phase, phase := s.db.phase + 1 }
        result := none }
  /-- R151, R156, the boundary with no frame waiting. -/
  | pwmWraps (booted : s.db.devInit = true) (boundary : s.db.phase = 255)
      (notReady : s.db.dataReady = false) : EventStep s .pwmStep { s with
        db := { s.db with out := pwmOutputs s.db.active s.db.phase, phase := 0, raised := none }
        result := none }
  /-- R151, R156, the boundary with a frame waiting. -/
  | pwmTransfers (booted : s.db.devInit = true) (boundary : s.db.phase = 255)
      (waiting : s.db.dataReady = true) : EventStep s .pwmStep { s with
        db := { s.db with out := pwmOutputs s.db.active s.db.phase, phase := 0,
                          active := s.db.staging, dataReady := false, rxIntEn := true,
                          raised := none }
        result := none }
  /-- R135. -/
  | idleTimeout (raised : s.db.raised = some .idleTimeout) : EventStep s .idleTimeout { s with
      db := { s.db with tmrArmed := false, rxState := .idle, raised := none }, result := none }
  /-- R156, a frame waiting. -/
  | transferCopies (raised : s.db.raised = some .transfer) (waiting : s.db.dataReady = true) :
      EventStep s .transfer { s with
        db := { s.db with active := s.db.staging, dataReady := false, rxIntEn := true,
                          raised := none }
        result := none }
  /-- R156, no frame waiting. -/
  | transferIdles (raised : s.db.raised = some .transfer) (notReady : s.db.dataReady = false) :
      EventStep s .transfer { s with db := { s.db with raised := none }, result := none }

/-- Every next state of `exec` is a row of the relation. -/
theorem eventStep_of_exec {i : Instr} {s t : State} (h : exec i s = .next t) : EventStep s i t := by
  cases i with
  | reset block => cases block <;> cases h <;> constructor
  | ckCreate => obtain rfl := execCkCreate_next h; constructor
  | ckVerify => obtain rfl := execCkVerify_next h; constructor
  | frameEncode source destination payload =>
    cases henc : encodeFrame source destination payload with
    | ok frame => rw [exec_frameEncode_of_ok henc] at h; cases h; exact .encoded henc
    | error kind => rw [exec_frameEncode_of_error henc] at h; cases h; exact .encodeFails henc
  | frameDecode bytes =>
    cases hdec : decodeFrame bytes with
    | ok triple => rw [exec_frameDecode_of_ok hdec] at h; cases h; exact .decoded hdec
    | error kind => rw [exec_frameDecode_of_error hdec] at h; cases h; exact .decodeFails hdec
  | btInit =>
    obtain ⟨hclosed, ⟨rfl, rfl, hclaim, rfl⟩ | ⟨rfl, rfl⟩ | ⟨rfl, hfail, rfl⟩⟩ := execBtInit_next h
    · exact .btInitOpens _ hclosed hclaim
    · exact .btInitOpenFails _ _ _ hclosed
    · exact .btInitCloses _ hclosed hfail
  | send =>
    obtain ⟨hready, ⟨hfits, rfl⟩ | ⟨hlong, rfl⟩⟩ := execSend_next h
    · exact .sendAccepted _ _ hready hfits
    · exact .sendRejected _ _ hready hlong
  | btShutdown => obtain ⟨hready, rfl⟩ := execBtShutdown_next h; exact .btShutdown _ _ hready
  | txAssert => obtain ⟨hassert, rfl⟩ := execTxAssert_next h; exact .txAssert hassert
  | txWrite => obtain ⟨hwrite, hrange, rfl⟩ := execTxWrite_next h; exact .txWrite hwrite hrange
  | txDrainDone =>
    obtain ⟨hdrain, hempty, rfl⟩ := execTxDrainDone_next h
    exact .txDrainDone hdrain hempty
  | txRelease => obtain ⟨hrelease, rfl⟩ := execTxRelease_next h; exact .txRelease hrelease
  | lineByte => obtain ⟨_, _, hq, rfl⟩ := execLineByte_next h; exact .lineByte hq
  | ioError =>
    obtain ⟨hsending, rfl⟩ := execIoError_next h
    exact .ioError ((sending_iff _).mpr hsending)
  | devInit => obtain ⟨hoff, rfl⟩ := execDevInit_next h; exact .devInit hoff
  | rxByte b =>
    obtain ⟨hen, _, -, rfl, ⟨hidle, rfl⟩ | ⟨hcnt, hactive, rfl⟩ | ⟨hcnt, hactive, rfl⟩⟩ :=
      execRxByte_next h
    · exact .rxFirst b hen hidle
    · exact .rxMiddle b hen hactive hcnt
    · exact .rxLast b hen hactive hcnt
  | tick => obtain rfl := execTick_next h; constructor
  | pwmStep =>
    obtain ⟨hinit, ⟨hphase, rfl⟩ | ⟨hphase, hready, rfl⟩ | ⟨hphase, hready, rfl⟩⟩ :=
      execPwmStep_next h
    · exact .pwmCounts hinit hphase
    · exact .pwmWraps hinit hphase hready
    · exact .pwmTransfers hinit hphase hready
  | idleTimeout => obtain ⟨hraised, rfl⟩ := execIdleTimeout_next h; exact .idleTimeout hraised
  | transfer =>
    obtain ⟨hraised, ⟨hready, rfl⟩ | ⟨hready, rfl⟩⟩ := execTransfer_next h
    · exact .transferCopies hraised hready
    · exact .transferIdles hraised hready
  | frame => cases h

/-- R102: a `BT_INIT` whose open, configuration and claim succeed. -/
theorem exec_btInit_of_ok (baud : Nat) {claim : Claim} {s : State}
    (hclosed : s.hb.btState = .closed) (hclaim : claim ≠ .fail) :
    exec (.btInit baud true true claim) s = .next { s with
      hb := { s.hb with lineOpen := true, dirClaimed := true, de := false, btState := .ready,
                        cfg := LineConfig.standard baud }
      result := some ⟨.btInit, .ok⟩ } := by
  simp [exec, execBtInit, hclosed, hclaim, HB.claimDirection, HB.driveDE, State.complete]

/-- R102: a `BT_INIT` that finds no line to open. -/
theorem exec_btInit_of_open_fails (baud : Nat) (cfgOk : Bool) (claim : Claim) {s : State}
    (hclosed : s.hb.btState = .closed) : exec (.btInit baud false cfgOk claim) s
      = .next { s with result := some ⟨.btInit, .error .configurationError⟩ } := by
  simp [exec, execBtInit, hclosed, State.raise, State.complete]

/-- R102: a `BT_INIT` that opens the line and fails later closes it again. -/
theorem exec_btInit_of_later_fails (baud : Nat) {cfgOk : Bool} {claim : Claim} {s : State}
    (hclosed : s.hb.btState = .closed) (hfail : cfgOk = false ∨ claim = .fail) :
    exec (.btInit baud true cfgOk claim) s = .next { s with
      hb := { s.hb with lineOpen := false }
      result := some ⟨.btInit, .error .configurationError⟩ } := by
  cases cfgOk with
  | false => simp [exec, execBtInit, hclosed, State.raise, State.complete]
  | true =>
    obtain rfl : claim = .fail := by simpa using hfail
    simp [exec, execBtInit, hclosed, State.raise, State.complete]

/-- R135: a timeout that has been raised. -/
theorem exec_idleTimeout_of_raised {s : State} (h : s.db.raised = some .idleTimeout) :
    exec .idleTimeout s = .next { s with
      db := { s.db with tmrArmed := false, rxState := .idle, raised := none }
      result := none } := by
  simp [exec, execIdleTimeout, h, serveTimeout_eq, State.silent]

/-- R156: a transfer that has been raised. -/
theorem exec_transfer_of_raised {s : State} (h : s.db.raised = some .transfer) :
    exec .transfer s = .next { s with
      db := { s.db with
        active := if s.db.dataReady = true then s.db.staging else s.db.active
        dataReady := false
        rxIntEn := if s.db.dataReady = true then true else s.db.rxIntEn
        raised := none }
      result := none } := by
  simp [exec, execTransfer, h, serveTransfer_eq, State.silent]

/-- Every row of the relation is a next state of `exec`. -/
theorem exec_of_eventStep {i : Instr} {s t : State} (h : EventStep s i t) : exec i s = .next t := by
  cases h with
  | resetHost | resetDevice | ckCreate | ckVerify | tick => rfl
  | encoded built => exact exec_frameEncode_of_ok built s
  | encodeFails failed => exact exec_frameEncode_of_error failed s
  | decoded read => exact exec_frameDecode_of_ok read s
  | decodeFails failed => exact exec_frameDecode_of_error failed s
  | btInitOpens baud closed claimed => exact exec_btInit_of_ok baud closed claimed
  | btInitOpenFails baud cfgOk claim closed =>
    exact exec_btInit_of_open_fails baud cfgOk claim closed
  | btInitCloses baud closed failed => exact exec_btInit_of_later_fails baud closed failed
  | sendAccepted source destination ready fits =>
    exact exec_send_of_ok (encodeFrame_of_le source destination fits) ready
  | sendRejected source destination ready long =>
    exact exec_send_of_error (encodeFrame_of_gt source destination long) ready
  | btShutdown releaseOk closeOk ready =>
    exact (btShutdownReleasesEverything releaseOk closeOk s).1 ready
  | txAssert inAssert => exact exec_txAssert_of_txAssert inAssert
  | txWrite inWrite inRange => exact (txWriteQueuesNextByte s).1 inRange inWrite
  | txDrainDone inDrain drained => exact exec_txDrainDone_of_drained inDrain drained
  | txRelease inRelease => exact exec_txRelease_of_txRelease inRelease
  | lineByte queued => exact exec_lineByte_of_cons queued
  | ioError sending => exact if_pos sending
  | devInit off => exact exec_devInit_of_not_devInit off
  | rxFirst b enabled idle => exact exec_rxByte_of_ok enabled (receive_idle s.db b idle)
  | rxMiddle b enabled active count =>
    exact exec_rxByte_of_ok enabled (receive_middle s.db b active count)
  | rxLast b enabled active count =>
    exact exec_rxByte_of_ok enabled (receive_last s.db b active count)
  | pwmCounts booted inside =>
    simp only [exec_pwmStep_of_devInit booted, inside, false_and, if_false]
  | pwmWraps booted boundary notReady =>
    simp [exec_pwmStep_of_devInit booted, boundary, notReady]
  | pwmTransfers booted boundary waiting =>
    simp [exec_pwmStep_of_devInit booted, boundary, waiting]
  | idleTimeout raised => exact exec_idleTimeout_of_raised raised
  | transferCopies raised waiting => simp [exec_transfer_of_raised raised, waiting]
  | transferIdles raised notReady => simp [exec_transfer_of_raised raised, notReady]

/-- The relation is the model's `exec`, where it has a next state. -/
theorem exec_next_iff {i : Instr} {s t : State} : exec i s = .next t ↔ EventStep s i t :=
  ⟨eventStep_of_exec, exec_of_eventStep⟩

/-- R134, R135: the three things one period of the idle timer can do. -/
theorem countDown_cases (d : DB) :
    (d.tmrArmed = false ∧ d.countDown = d) ∨
    (d.tmrArmed = true ∧ 2 ≤ d.tmrCnt ∧ d.countDown = { d with tmrCnt := d.tmrCnt - 1 }) ∨
    (d.tmrArmed = true ∧ d.tmrCnt ≤ 1 ∧ d.countDown
      = { d with tmrCnt := 0, tmrArmed := false, rxState := .idle, raised := none }) := by
  by_cases harmed : d.tmrArmed = true
  · rcases Nat.lt_or_ge d.tmrCnt 2 with hcnt | hcnt
    · exact .inr (.inr ⟨harmed, by omega, countDown_expires d harmed (by omega)⟩)
    · exact .inr (.inl ⟨harmed, hcnt, countDown_running d harmed hcnt⟩)
  · rw [Bool.not_eq_true] at harmed
    exact .inl ⟨harmed, countDown_stopped d harmed⟩

end Sys2Proof.Machine
end

section
/-! ## Invariants of every step (spec/10_state.md R28, R10) -/

namespace Sys2Proof.Machine

/-! ### The device block -/

/-- R134: one period of the idle timer keeps the invariant of the device block. -/
theorem DeviceInv.countDown {d : DB} (h : DeviceInv d) : DeviceInv d.countDown := by
  have hrange := h.tmrCntRange
  obtain ⟨harmed, hd⟩ | ⟨harmed, hcnt, hd⟩ | ⟨harmed, hcnt, hd⟩ := countDown_cases d <;> rw [hd]
  · exact h
  · exact { h with timerRunning := fun _ => by simp only; omega
                   tmrCntRange := by simp only; omega }
  · exact { h with
      activeCount := by simp
      readyIdle := fun hready => ⟨rfl, (h.readyIdle hready).2⟩
      timerActive := by simp
      timerRunning := by simp
      tmrCntRange := Nat.zero_le _
      nothingRaised := rfl }

/-- R29: the device block after a `RESET`, whatever the free values. -/
theorem deviceInv_resetWith (draw : Nat) : DeviceInv (DB.resetWith draw) := by
  constructor <;> simp [DB.resetWith]
  exact Nat.lt_succ_iff.mp (Nat.mod_lt _ (Nat.succ_pos _))

theorem one_le_tIdle : 1 ≤ Config.tIdle := Nat.succ_pos _

/-- R28 items 1 to 4: every event keeps the invariant of the device block. -/
theorem EventStep.deviceInv {i : Instr} {s t : State} (h : EventStep s i t) (inv : DeviceInv s.db) :
    DeviceInv t.db := by
  have htIdle := one_le_tIdle
  cases h with
  | resetDevice => exact deviceInv_resetWith _
  | devInit off => exact { inv with interruptOn := rfl }
  | rxFirst b enabled idle =>
    exact { inv with
      activeCount := by simp
      readyIdle := by simp
      timerActive := by simp
      timerRunning := fun _ => htIdle
      tmrCntRange := le_rfl
      rxCntRange := by simp }
  | rxMiddle b enabled active count =>
    exact { inv with
      activeCount := fun _ => by simp only; omega
      readyIdle := fun hready => absurd (inv.readyIdle hready).1 (by simp [active])
      timerActive := by simp [active]
      timerRunning := fun _ => htIdle
      tmrCntRange := le_rfl
      rxCntRange := by simp only; omega }
  | rxLast b enabled active count =>
    exact { inv with
      activeCount := by simp
      readyIdle := by simp
      timerActive := by simp
      timerRunning := by simp
      tmrCntRange := le_rfl
      rxCntRange := le_rfl }
  | tick => exact inv.countDown
  | pwmCounts booted inside => exact { inv with }
  | pwmWraps booted boundary notReady => exact { inv with nothingRaised := rfl }
  | pwmTransfers booted boundary waiting =>
    exact { inv with readyIdle := by simp, interruptOn := booted.symm, nothingRaised := rfl }
  | idleTimeout raised | transferCopies raised | transferIdles raised =>
    simp [inv.nothingRaised] at raised
  | _ => exact inv

/-- Settles O52: `EventStep.deviceInv` for the event that the step takes. -/
theorem stepKeepsDeviceInvariant : Obligations.StepKeepsDeviceInvariant := by
  intro s t inv h
  obtain ⟨i, rest, -, hexec⟩ := step_next s t h
  exact (eventStep_of_exec hexec).deviceInv inv

/-! ### The host block -/

/-- R29: the host block after a `RESET`, whatever the free values. -/
theorem hostInv_resetWith (draw : Nat) : HostInv (HB.resetWith draw) := by
  constructor <;> simp [HB.resetWith] <;> omega

/-- R23: while the line stays open, the sequencer and the registers of the send may change as long
as the index fits the new state. -/
theorem HostInv.whileOpen {h : HB} (inv : HostInv h) (hopen : h.btState ≠ .closed) {b : BtState}
    {idx len : Nat} {buf : Vector Byte 69} {q : List Byte} {de : Bool} (hb : b ≠ .closed)
    (hlen : 5 ≤ len ∧ len ≤ 69) (hidx : idx ≤ 69) (hassert : b = .txAssert → idx = 0)
    (hwrite : b = .txWrite → idx < len) (hdrain : b = .txDrain ∨ b = .txRelease → idx = len) :
    HostInv { h with
      btState := b, txIdx := idx, txLen := len, txbuf := buf, uartQ := q, de := de } :=
  { inv with
    closedLine := (iff_false_left hb).mpr fun hline => hopen (inv.closedLine.mpr hline)
    closedQuiet := fun hclosed => absurd hclosed hb
    txLenRange := hlen
    txIdxRange := hidx
    assertIdx := hassert
    writeIdx := hwrite
    drainIdx := hdrain }

/-- R12, R14, R23, R24: every event keeps the invariant of the host block. -/
theorem EventStep.hostInv {i : Instr} {s t : State} (h : EventStep s i t) (inv : HostInv s.hb) :
    HostInv t.hb := by
  have hlen := inv.txLenRange
  have hidx := inv.txIdxRange
  cases h with
  | resetHost => exact hostInv_resetWith _
  | btInitOpens baud closed claimed =>
    exact { inv with
      closedLine := by simp
      claimHeld := rfl
      closedQuiet := by simp
      assertIdx := by simp
      writeIdx := by simp
      drainIdx := by simp
      cfgStandard := fun _ => ⟨baud, rfl⟩ }
  | btInitCloses baud closed failed =>
    rw [← inv.closedLine.mp closed]
    exact inv
  | sendAccepted source destination ready fits =>
    exact inv.whileOpen (by simp [ready]) (by simp) (by rw [frameBytes_length]; omega)
      (Nat.zero_le _) (fun _ => rfl) (by simp) (by simp)
  | btShutdown releaseOk closeOk ready =>
    have hheld : s.hb.dirClaimed = true := by
      rw [inv.claimHeld, ← Bool.not_eq_false, ← inv.closedLine, ready]; simp
    exact { inv with
      closedLine := by simp
      claimHeld := rfl
      closedQuiet := by simp [hheld]
      assertIdx := by simp
      writeIdx := by simp
      drainIdx := by simp
      cfgStandard := by simp }
  | txAssert inAssert =>
    exact inv.whileOpen (by simp [inAssert]) (by simp) hlen hidx (by simp)
      (fun _ => by rw [inv.assertIdx inAssert]; omega) (by simp)
  | txWrite inWrite inRange =>
    have hlt := inv.writeIdx inWrite
    by_cases hlast : s.hb.txIdx + 1 = s.hb.txLen <;> simp only [hlast, if_true, if_false]
    · exact inv.whileOpen (by simp [inWrite]) (by simp) hlen hlen.2 (by simp) (by simp)
        fun _ => rfl
    · exact inv.whileOpen (by simp [inWrite]) (by simp) hlen inRange (by simp)
        (fun _ => by omega) (by simp)
  | txDrainDone inDrain drained =>
    exact inv.whileOpen (by simp [inDrain]) (by simp) hlen hidx (by simp) (by simp)
      fun _ => inv.drainIdx (.inl inDrain)
  | txRelease inRelease =>
    exact inv.whileOpen (by simp [inRelease]) (by simp) hlen hidx (by simp) (by simp) (by simp)
  | lineByte queued =>
    have hopen : s.hb.btState ≠ .closed := fun hclosed => by
      simp [(inv.closedQuiet hclosed).2] at queued
    exact inv.whileOpen hopen hopen hlen hidx inv.assertIdx inv.writeIdx inv.drainIdx
  | ioError sending =>
    have hopen : s.hb.btState ≠ .closed := fun hclosed => by simp [hclosed] at sending
    exact inv.whileOpen hopen (by simp) hlen hidx (by simp) (by simp) (by simp)
  | _ => exact inv

/-- R24: after an event that leaves the line open, either it was open before, with the same
configuration, or the event is the `BT_INIT` that opened it and wrote the configuration. -/
theorem EventStep.cfg_of_lineOpen {i : Instr} {s t : State} (h : EventStep s i t)
    (hopen : t.hb.lineOpen = true) : (s.hb.lineOpen = true ∧ t.hb.cfg = s.hb.cfg) ∨
      ∃ baud claim, i = .btInit baud true true claim ∧ t.hb.cfg = LineConfig.standard baud := by
  cases h with
  | resetHost => cases hopen
  | btInitOpens baud closed claimed => exact .inr ⟨baud, _, rfl, rfl⟩
  | btInitCloses | btShutdown => cases hopen
  | _ => exact .inl ⟨hopen, rfl⟩

/-- Settles O53: `EventStep.hostInv` for the event that the step takes, and
`EventStep.cfg_of_lineOpen`. -/
theorem stepKeepsHostInvariant : Obligations.StepKeepsHostInvariant := by
  constructor
  · intro s t inv h
    obtain ⟨i, rest, -, hexec⟩ := step_next s t h
    exact (eventStep_of_exec hexec).hostInv inv
  · intro i s t _ h hopen
    exact (eventStep_of_exec h).cfg_of_lineOpen hopen

/-! ### The direction line -/

/-- R28 item 6 on an idle block: receiving, nothing queued. -/
theorem hostClean_of_quiet {h : HB} (hstate : h.btState = .ready ∨ h.btState = .closed)
    (hde : h.de = false) (hq : h.uartQ = []) : HostClean h where
  drivesWhileSending := by rcases hstate with hs | hs <;> simp [hs, hde]
  queueEmpty := fun _ => hq

/-- R28 item 6: every event but `IO_ERROR` keeps `DE = 1` exactly while a send drives the bus. -/
theorem EventStep.hostClean {i : Instr} {s t : State} (h : EventStep s i t) (hio : i ≠ .ioError)
    (inv : HostInv s.hb) (clean : HostClean s.hb) : HostClean t.hb := by
  have hdrives := clean.drivesWhileSending
  cases h with
  | resetHost => exact hostClean_of_quiet (.inr rfl) rfl rfl
  | btInitOpens baud closed claimed =>
    exact hostClean_of_quiet (.inl rfl) rfl (inv.closedQuiet closed).2
  | btInitCloses => exact { clean with }
  | sendAccepted source destination ready fits =>
    exact ⟨by simpa [ready] using hdrives, fun _ => clean.queueEmpty (.inl ready)⟩
  | btShutdown releaseOk closeOk ready =>
    have hde : s.hb.de = false := by simpa [ready] using hdrives
    exact hostClean_of_quiet (.inr rfl) (by simp [hde]) rfl
  | txAssert inAssert => exact ⟨by simp, by simp⟩
  | txWrite inWrite inRange =>
    have hde : s.hb.de = true := hdrives.mpr (.inl inWrite)
    constructor <;> simp only <;> split <;> simp [hde]
  | txDrainDone inDrain drained =>
    exact ⟨by simpa [inDrain] using hdrives, fun _ => drained⟩
  | txRelease inRelease =>
    exact hostClean_of_quiet (.inl rfl) rfl (clean.queueEmpty (.inr (.inr (.inl inRelease))))
  | lineByte queued =>
    exact ⟨hdrives, fun hquiet => by simp [clean.queueEmpty hquiet] at queued⟩
  | ioError sending => exact absurd rfl hio
  | _ => exact clean

/-- Settles O54: `EventStep.hostClean`; a `BT_INIT` that answers `Ok` opened a block that was
closed, hence quiet, and a reset leaves it quiet. -/
theorem directionLineBracketsSend : Obligations.DirectionLineBracketsSend := by
  refine ⟨?kept, ?opened, ?reset⟩
  case kept =>
    intro i s t hio inv clean h
    exact (eventStep_of_exec h).hostClean hio inv clean
  case opened =>
    intro baud openOk cfgOk claim s t inv h hok
    cases eventStep_of_exec h with
    | btInitOpens baud closed claimed =>
      exact hostClean_of_quiet (.inl rfl) rfl (inv.closedQuiet closed).2
    | btInitOpenFails | btInitCloses => simp at hok
  case reset =>
    intro s t h
    cases eventStep_of_exec h
    exact hostClean_of_quiet (.inr rfl) rfl rfl

end Sys2Proof.Machine
end

section
/-! ## Records (spec/30_encoding.md R66, R67) -/

namespace Sys2Proof

/-! ### The decoder undoes the encoder -/

/-- R67, R71: the operands of `ENCODE` and `SEND`, source first. -/
theorem takeSendOperands_encodePayload (source destination : Byte) {payload : List Byte}
    (rest : List Byte) (h : payload.length ≤ 255) :
    takeSendOperands (source :: destination :: (encodePayload payload ++ rest))
      = .ok ((source, destination, payload), rest) := by
  simp [takeSendOperands, takePayload_encodePayload payload rest h, bind, Except.bind, pure,
    Except.pure]

/-- The operands of `BT_INIT`. -/
theorem takeBtInit_encode (baud : Nat) (openOk cfgOk : Bool) (claim : Claim) (rest : List Byte) :
    takeBtInit (encodeNat baud ++
        encodeBit openOk :: encodeBit cfgOk :: encodeClaim claim :: rest)
      = .ok (.btInit baud openOk cfgOk claim, rest) := by
  simp [takeBtInit, bind, Except.bind, pure, Except.pure]

/-- R60: the bytes of a wire frame after its preamble. -/
theorem takeFrame_encodePayload (destination source checksum : Byte) {payload : List Byte}
    (rest : List Byte) (h : payload.length ≤ 64) :
    takeFrame (destination :: source :: (encodePayload payload ++ checksum :: rest))
      = .ok (.frame destination source payload checksum, rest) := by
  have hlen : payload.length % 256 = payload.length := by omega
  simp [takeFrame, encodePayload, hlen, h, takeBytes_append, bind, Except.bind, pure, Except.pure]

/-- Settles O57: the code selects the reader of the operands, which undoes their writer. -/
theorem decodeOfEncodeIsTheInstruction : Obligations.DecodeOfEncodeIsTheInstruction := by
  intro i rest hwf
  cases i with
  | frameEncode source destination payload =>
    have hread := takeSendOperands_encodePayload source destination rest (of_decide_eq_true hwf)
    simp [encode, decode, decodeOperands, hread, bind, Except.bind, pure, Except.pure]
  | send source destination payload =>
    have hread := takeSendOperands_encodePayload source destination rest (of_decide_eq_true hwf)
    simp [encode, decode, decodeOperands, hread, bind, Except.bind, pure, Except.pure]
  | frame destination source payload checksum =>
    have hread :=
      takeFrame_encodePayload destination source checksum rest (of_decide_eq_true hwf)
    simp [encode, decode, decodeOperands, hread]
  | btInit baud openOk cfgOk claim =>
    simp [encode, decode, decodeOperands, takeBtInit_encode]
  | _ =>
    simp [encode, decode, decodeOperands, bind, Except.bind, pure, Except.pure]

/-! ### The decoder reads nothing but what the encoder writes -/

/-- R67, R71: the operands of `ENCODE` and `SEND`, source first. -/
theorem takeSendOperands_ok {bs payload rest : List Byte} {source destination : Byte}
    (h : takeSendOperands bs = .ok ((source, destination, payload), rest)) :
    bs = source :: destination :: (encodePayload payload ++ rest) ∧ payload.length ≤ 255 := by
  obtain ⟨⟨_, _⟩, hsource, h⟩ := except_bind_ok h
  obtain ⟨⟨_, _⟩, hdestination, h⟩ := except_bind_ok h
  obtain ⟨⟨_, _⟩, hpayload, h⟩ := except_bind_ok h
  cases h
  obtain ⟨rfl, hlen⟩ := takePayload_ok hpayload
  rw [takeByte_ok hsource, takeByte_ok hdestination]
  exact ⟨rfl, hlen⟩

/-- The operands of `BT_INIT`. -/
theorem takeBtInit_ok {bs rest : List Byte} {i : Instr} (h : takeBtInit bs = .ok (i, rest)) :
    ∃ baud openOk cfgOk claim, i = .btInit baud openOk cfgOk claim ∧ bs = encodeNat baud ++
      encodeBit openOk :: encodeBit cfgOk :: encodeClaim claim :: rest := by
  obtain ⟨⟨baud, _⟩, hbaud, h⟩ := except_bind_ok h
  obtain ⟨⟨openOk, _⟩, hopen, h⟩ := except_bind_ok h
  obtain ⟨⟨cfgOk, _⟩, hcfg, h⟩ := except_bind_ok h
  obtain ⟨⟨claim, _⟩, hclaim, h⟩ := except_bind_ok h
  cases h
  refine ⟨baud, openOk, cfgOk, claim, rfl, ?_⟩
  rw [takeNat_ok hbaud baud le_rfl, takeBit_ok hopen, takeBit_ok hcfg, takeClaim_ok hclaim,
    encodeNat]

/-- R60, R62: the bytes of a wire frame after its preamble. -/
theorem takeFrame_ok {bs rest : List Byte} {i : Instr} (h : takeFrame bs = .ok (i, rest)) :
    ∃ destination source payload checksum, i = .frame destination source payload checksum ∧
      payload.length ≤ 64 ∧
      bs = destination :: source :: (encodePayload payload ++ checksum :: rest) := by
  obtain ⟨⟨destination, _⟩, hdestination, h⟩ := except_bind_ok h
  obtain ⟨⟨source, _⟩, hsource, h⟩ := except_bind_ok h
  obtain ⟨⟨len, _⟩, hlen, h⟩ := except_bind_ok h
  dsimp only at h
  split at h
  next hmax =>
    obtain ⟨⟨payload, _⟩, hpayload, h⟩ := except_bind_ok h
    obtain ⟨⟨checksum, _⟩, hchecksum, h⟩ := except_bind_ok h
    cases h
    obtain ⟨rfl, hcount⟩ := takeBytes_ok hpayload
    refine ⟨destination, source, payload, checksum, rfl, by omega, ?_⟩
    obtain rfl : _ = _ :: _ := takeByte_ok hchecksum
    rw [takeByte_ok hdestination, takeByte_ok hsource, takeByte_ok hlen, encodePayload, hcount]
    simp
  next => cases h

/-- R69: a code that is neither in the table of R66 nor the preamble of a wire frame names no
event. -/
theorem decodeOperands_of_not_mem {code : Byte} (bs : List Byte)
    (h : code ∉ Config.preamble :: eventCodes) :
    decodeOperands code bs = .error (.unknownCode code) := by
  simp only [Config.preamble, eventCodes, List.mem_cons, List.not_mem_nil, or_false, not_or] at h
  simp only [decodeOperands, h, if_false]

/-- What the readers of the operands accept is well-formed, and is what the writers write after the
code. -/
theorem decodeOperands_ok {code : Byte} {bs rest : List Byte} {i : Instr}
    (h : decodeOperands code bs = .ok (i, rest)) :
    i.wf = true ∧ code :: bs = encode i ++ rest := by
  by_cases hcode : code ∈ Config.preamble :: eventCodes
  case neg => rw [decodeOperands_of_not_mem bs hcode] at h; cases h
  simp only [eventCodes, List.mem_cons, List.not_mem_nil, or_false] at hcode
  rcases hcode with rfl | rfl | rfl | rfl | rfl | rfl | rfl | rfl | rfl | rfl | rfl | rfl | rfl |
    rfl | rfl | rfl | rfl | rfl | rfl | rfl | rfl <;>
    simp only [decodeOperands, BitVec.reduceEq, reduceIte] at h
  · -- a wire frame
    obtain ⟨_, _, _, _, rfl, hlen, rfl⟩ := takeFrame_ok h
    exact ⟨decide_eq_true hlen, by simp [encode]⟩
  · -- `RESET`
    obtain ⟨⟨_, _⟩, hread, h⟩ := except_bind_ok h
    cases h
    exact ⟨rfl, by rw [takeBlock_ok hread]; rfl⟩
  · -- `CK_CREATE`
    obtain ⟨⟨_, _⟩, hread, h⟩ := except_bind_ok h
    cases h
    exact ⟨rfl, by rw [takeSeq_ok hread]; rfl⟩
  · -- `CK_VERIFY`
    obtain ⟨⟨_, _⟩, hbytes, h⟩ := except_bind_ok h
    obtain ⟨⟨_, _⟩, hexpected, h⟩ := except_bind_ok h
    cases h
    obtain rfl : _ = _ :: _ := takeByte_ok hexpected
    exact ⟨rfl, by rw [takeSeq_ok hbytes]; simp [encode]⟩
  · -- `ENCODE`
    obtain ⟨⟨⟨_, _, _⟩, _⟩, hread, h⟩ := except_bind_ok h
    cases h
    obtain ⟨rfl, hlen⟩ := takeSendOperands_ok hread
    exact ⟨decide_eq_true hlen, rfl⟩
  · -- `DECODE`
    obtain ⟨⟨_, _⟩, hread, h⟩ := except_bind_ok h
    cases h
    exact ⟨rfl, by rw [takeSeq_ok hread]; rfl⟩
  · -- `BT_INIT`
    obtain ⟨_, _, _, _, rfl, rfl⟩ := takeBtInit_ok h
    exact ⟨rfl, by simp [encode]⟩
  · -- `SEND`
    obtain ⟨⟨⟨_, _, _⟩, _⟩, hread, h⟩ := except_bind_ok h
    cases h
    obtain ⟨rfl, hlen⟩ := takeSendOperands_ok hread
    exact ⟨decide_eq_true hlen, rfl⟩
  · -- `BT_SHUTDOWN`
    obtain ⟨⟨_, _⟩, hrelease, h⟩ := except_bind_ok h
    obtain ⟨⟨_, _⟩, hclose, h⟩ := except_bind_ok h
    cases h
    obtain rfl : _ = _ :: _ := takeBit_ok hclose
    exact ⟨rfl, by rw [takeBit_ok hrelease]; rfl⟩
  -- from `TX_ASSERT` to `DEV_INIT`
  iterate 7 · cases h; exact ⟨rfl, rfl⟩
  · -- `RX_BYTE`
    obtain ⟨⟨_, _⟩, hread, h⟩ := except_bind_ok h
    cases h
    exact ⟨rfl, by rw [takeByte_ok hread]; rfl⟩
  -- from `TICK` to `TRANSFER`
  iterate 4 · cases h; exact ⟨rfl, rfl⟩

/-- Settles O58: `decodeOperands_ok` for the record's code and the bytes after it. -/
theorem decodedBytesAreTheEncoding : Obligations.DecodedBytesAreTheEncoding := by
  intro bytes rest i h
  cases bytes with
  | nil => cases h
  | cons code bs => exact decodeOperands_ok h

/-- Settles O60: six records, read by the decoder. -/
theorem sampleRecordsDecode : Obligations.SampleRecordsDecode := by
  refine ⟨?_, ?_, ?_, ?_, ?_, ?_⟩ <;> decide

namespace Machine

/-- R9: a step applies the event of the record at the head of the input. -/
theorem step_of_decode {s : State} {i : Instr} {rest : List Byte}
    (h : decode s.input = .ok (i, rest)) : step s = exec i { s with input := rest } := by
  rw [step, takeEvent_ok s i rest h]

/-- Settles O59: `step_of_decode`; a well-formed event's record decodes to it. -/
theorem stepRunsDecodedEvent : Obligations.StepRunsDecodedEvent := by
  intro s i rest
  refine ⟨step_of_decode, fun hwf hinput => step_of_decode ?_⟩
  rw [hinput]
  exact decodeOfEncodeIsTheInstruction i rest hwf

end Machine

end Sys2Proof
end

section
/-! ## Which events have a step (spec/30_encoding.md R69, spec/60_exceptions.md R193) -/

namespace Sys2Proof.Machine

/-- R69: a record that names no event, or fails to decode, is refused. -/
theorem step_of_decode_error {s : State} {e : DecodeError} (hinput : s.input ≠ [])
    (h : decode s.input = .error e) : step s = .refused (.undecodable e) := by
  simp [step, takeEvent, hinput, h]

/-- R69: a record with an unknown code is refused: it does not decode, or it is a wire frame. -/
theorem step_refused_of_unknown_code {s : State} {code : Byte} {rest : List Byte}
    (hinput : s.input = code :: rest) (hcode : code ∉ eventCodes) :
    ∃ reason, step s = .refused reason := by
  cases hdec : decode s.input with
  | error e => exact ⟨_, step_of_decode_error (by simp [hinput]) hdec⟩
  | ok answer =>
    obtain ⟨i, rest'⟩ := answer
    have hread : decodeOperands code rest = .ok (i, rest') := by rwa [hinput] at hdec
    have hframe : code = 0x40 := by
      by_contra hne
      rw [decodeOperands_of_not_mem rest (List.not_mem_cons_of_ne_of_not_mem hne hcode)] at hread
      cases hread
    subst hframe
    obtain ⟨_, _, _, _, rfl, -, -⟩ := takeFrame_ok hread
    exact ⟨_, step_of_decode hdec⟩

/-- R69: an event that is not enabled is refused. -/
theorem exec_refused_of_not_enabled {i : Instr} {s : State} (h : ¬ enabled i s) :
    ∃ reason, exec i s = .refused reason := by
  cases i with
  | reset | ckCreate | ckVerify | frameEncode | frameDecode | tick => exact absurd trivial h
  | btInit => exact ⟨_, if_neg h⟩
  | send => exact ⟨_, exec_send_of_ne_ready _ _ _ h⟩
  | btShutdown => exact ⟨_, exec_btShutdown_of_ne_ready _ _ h⟩
  | txAssert => exact ⟨_, exec_txAssert_of_ne h⟩
  | txWrite => exact ⟨_, exec_txWrite_of_ne h⟩
  | txDrainDone => exact ⟨_, exec_txDrainDone_of_not_drained (not_and_or.mp h)⟩
  | txRelease => exact ⟨_, exec_txRelease_of_ne h⟩
  | lineByte => exact ⟨_, exec_lineByte_of_nil (not_not.mp h)⟩
  | ioError => exact ⟨_, exec_ioError_of_not_sending (mt (sending_iff _).mp h)⟩
  | devInit => exact ⟨_, exec_devInit_of_devInit (Bool.ne_false_iff.mp h)⟩
  | rxByte b => exact ⟨_, exec_rxByte_of_disabled b (Bool.eq_false_iff.mpr h)⟩
  | pwmStep => exact ⟨_, exec_pwmStep_of_not_devInit (Bool.eq_false_iff.mpr h)⟩
  | idleTimeout => exact ⟨_, if_neg h⟩
  | transfer => exact ⟨_, if_neg h⟩
  | frame => exact ⟨_, rfl⟩

/-- Settles O50: `step_refused_of_unknown_code`, the one arm of `FRAME`, and
`exec_refused_of_not_enabled`. -/
theorem unknownCodesAndDisabledEventsHaveNoStep :
    Obligations.UnknownCodesAndDisabledEventsHaveNoStep :=
  ⟨fun _ _ _ => step_refused_of_unknown_code,
    fun destination source checksum payload =>
      execFrame_refused destination source checksum payload,
    fun _ _ => exec_refused_of_not_enabled⟩

/-- R102: in `Closed` a `BT_INIT` ends, with `Ok` or with an error. -/
theorem exec_btInit_exists_next (baud : Nat) (openOk cfgOk : Bool) (claim : Claim) {s : State}
    (hclosed : s.hb.btState = .closed) :
    ∃ t, exec (.btInit baud openOk cfgOk claim) s = .next t := by
  cases openOk with
  | false => exact ⟨_, exec_btInit_of_open_fails baud cfgOk claim hclosed⟩
  | true =>
    by_cases hfail : cfgOk = false ∨ claim = .fail
    · exact ⟨_, exec_btInit_of_later_fails baud hclosed hfail⟩
    · obtain ⟨hcfg, hclaim⟩ := not_or.mp hfail
      obtain rfl := Bool.ne_false_iff.mp hcfg
      exact ⟨_, exec_btInit_of_ok baud hclosed hclaim⟩

/-- R131: with the interrupt source enabled and the counter in its range, a byte is received. -/
theorem exec_rxByte_exists_next (b : Byte) {s : State} (hen : s.db.rxIntEn = true)
    (hcnt : s.db.rxState = .active → s.db.rxCnt ≤ 29) : ∃ t, exec (.rxByte b) s = .next t := by
  cases hstate : s.db.rxState with
  | idle => exact ⟨_, exec_of_eventStep (.rxFirst b hen hstate)⟩
  | active =>
    rcases Nat.lt_or_eq_of_le (hcnt hstate) with hlt | heq
    · exact ⟨_, exec_of_eventStep (.rxMiddle b hen hstate hlt)⟩
    · exact ⟨_, exec_of_eventStep (.rxLast b hen hstate heq)⟩

/-- R193: in a sound state every enabled event has a next state; the invariants are needed for the
two events that index a buffer, and for the inner steps, which are not raised. -/
theorem exec_exists_next_of_enabled {i : Instr} {s : State} (hsound : Sound s) (h : enabled i s) :
    ∃ t, exec i s = .next t := by
  have hraised := hsound.device.nothingRaised
  cases i with
  | reset block => cases block <;> exact ⟨_, rfl⟩
  | ckCreate | ckVerify | tick => exact ⟨_, rfl⟩
  | frameEncode source destination payload =>
    cases henc : encodeFrame source destination payload with
    | ok frame => exact ⟨_, exec_frameEncode_of_ok henc s⟩
    | error kind => exact ⟨_, exec_frameEncode_of_error henc s⟩
  | frameDecode bytes =>
    cases hdec : decodeFrame bytes with
    | ok triple => exact ⟨_, exec_frameDecode_of_ok hdec s⟩
    | error kind => exact ⟨_, exec_frameDecode_of_error hdec s⟩
  | btInit baud openOk cfgOk claim => exact exec_btInit_exists_next baud openOk cfgOk claim h
  | send source destination payload =>
    exact (sendOnlyWhenReady source destination payload s).2 h
  | btShutdown releaseOk closeOk => exact exec_btShutdown_exists_next releaseOk closeOk h
  | txAssert => exact ⟨_, exec_txAssert_of_txAssert h⟩
  | txWrite =>
    have hlt := hsound.host.writeIdx h
    have hlen := hsound.host.txLenRange.2
    exact exec_txWrite_exists_next h (by omega)
  | txDrainDone => exact ⟨_, exec_txDrainDone_of_drained h.1 h.2⟩
  | txRelease => exact ⟨_, exec_txRelease_of_txRelease h⟩
  | lineByte =>
    obtain ⟨b, rest, hq⟩ := List.exists_cons_of_ne_nil h
    exact ⟨_, exec_lineByte_of_cons hq⟩
  | ioError => exact exec_ioError_exists_next ((sending_iff _).mpr h)
  | devInit => exact ⟨_, exec_devInit_of_not_devInit h⟩
  | rxByte b =>
    exact exec_rxByte_exists_next b h fun hactive => (hsound.device.activeCount hactive).2
  | pwmStep => exact exec_pwmStep_exists_next h
  | idleTimeout | transfer => cases hraised.symm.trans h
  | frame => cases h

/-- Settles O51: `exec_exists_next_of_enabled`. -/
theorem enabledEventsHaveAStep : Obligations.EnabledEventsHaveAStep :=
  fun _ _ => exec_exists_next_of_enabled

/-- R40, R193: in a sound state an event is taken or refused, as it is enabled or not. -/
theorem exec_ne_fault {i : Instr} {s : State} (hsound : Sound s) (reason : Fault) :
    exec i s ≠ .fault reason := by
  by_cases h : enabled i s
  · obtain ⟨t, ht⟩ := exec_exists_next_of_enabled hsound h
    simp [ht]
  · obtain ⟨r, hr⟩ := exec_refused_of_not_enabled h
    simp [hr]

/-- Settles O56: a step is refused before it applies an event, or applies one to the same blocks. -/
theorem soundStatesNeverFault : Obligations.SoundStatesNeverFault := by
  intro s reason hsound
  cases hdec : decode s.input with
  | ok answer =>
    obtain ⟨i, rest⟩ := answer
    rw [step_of_decode hdec]
    have hsound' : Sound { s with input := rest } := ⟨hsound.device, hsound.host⟩
    exact exec_ne_fault hsound' reason
  | error e =>
    by_cases hinput : s.input = []
    · simp [step, takeEvent, hinput]
    · simp [step_of_decode_error hinput hdec]

end Sys2Proof.Machine
end

section
/-! ## What an event leaves alone (spec/10_state.md R10, spec/60_exceptions.md R181, R191) -/

namespace Sys2Proof.Machine

/-! ### The two blocks -/

/-- R10: an event of the host block leaves the device block and its draws as they were. -/
theorem EventStep.device_of_block_hb {i : Instr} {s t : State} (h : EventStep s i t)
    (hblock : i.block = some .hb) : t.db = s.db ∧ t.deviceDraws = s.deviceDraws := by
  cases h with
  | resetDevice | devInit | rxFirst | rxMiddle | rxLast | tick | pwmCounts | pwmWraps | pwmTransfers
  | idleTimeout | transferCopies | transferIdles => cases hblock
  | _ => exact ⟨rfl, rfl⟩

/-- R10: an event of the device block leaves the host block, its draws and the wire as they were. -/
theorem EventStep.host_of_block_db {i : Instr} {s t : State} (h : EventStep s i t)
    (hblock : i.block = some .db) :
    t.hb = s.hb ∧ t.hostDraws = s.hostDraws ∧ t.wire = s.wire := by
  cases h with
  | resetDevice | devInit | rxFirst | rxMiddle | rxLast | tick | pwmCounts | pwmWraps | pwmTransfers
  | idleTimeout | transferCopies | transferIdles => exact ⟨rfl, rfl, rfl⟩
  | _ => cases hblock

/-- Settles O42: the rows of the host leave the device alone, and those of the device the host. -/
theorem blocksShareNothing : Obligations.BlocksShareNothing :=
  fun _ _ _ h => ⟨(eventStep_of_exec h).device_of_block_hb, (eventStep_of_exec h).host_of_block_db⟩

/-- R10, R118: a host event is taken alike in two states that agree in the host block and in its
draws. -/
theorem EventStep.congr_host {i : Instr} {s s' t : State} (h : EventStep s i t)
    (hblock : i.block = some .hb) (hhb : s.hb = s'.hb) (hdraws : s.hostDraws = s'.hostDraws) :
    ∃ t', EventStep s' i t' ∧ t'.hb = t.hb ∧ t'.result = t.result := by
  rcases s' with ⟨hb, db, wire, bus, input, result, hostDraws, deviceDraws⟩
  obtain rfl : s.hb = hb := hhb
  obtain rfl : s.hostDraws = hostDraws := hdraws
  cases h with
  | resetHost => exact ⟨_, .resetHost, rfl, rfl⟩
  | ckCreate bytes => exact ⟨_, .ckCreate bytes, rfl, rfl⟩
  | ckVerify bytes expected => exact ⟨_, .ckVerify bytes expected, rfl, rfl⟩
  | encoded built => exact ⟨_, .encoded built, rfl, rfl⟩
  | encodeFails failed => exact ⟨_, .encodeFails failed, rfl, rfl⟩
  | decoded read => exact ⟨_, .decoded read, rfl, rfl⟩
  | decodeFails failed => exact ⟨_, .decodeFails failed, rfl, rfl⟩
  | btInitOpens baud closed claimed => exact ⟨_, .btInitOpens baud closed claimed, rfl, rfl⟩
  | btInitOpenFails baud cfgOk claim closed =>
    exact ⟨_, .btInitOpenFails baud cfgOk claim closed, rfl, rfl⟩
  | btInitCloses baud closed failed => exact ⟨_, .btInitCloses baud closed failed, rfl, rfl⟩
  | sendAccepted source destination ready fits =>
    exact ⟨_, .sendAccepted source destination ready fits, rfl, rfl⟩
  | sendRejected source destination ready long =>
    exact ⟨_, .sendRejected source destination ready long, rfl, rfl⟩
  | btShutdown releaseOk closeOk ready => exact ⟨_, .btShutdown releaseOk closeOk ready, rfl, rfl⟩
  | txAssert inAssert => exact ⟨_, .txAssert inAssert, rfl, rfl⟩
  | txWrite inWrite inRange =>
    exact ⟨_, .txWrite (s := ⟨s.hb, db, wire, bus, input, result, s.hostDraws, deviceDraws⟩) inWrite
      inRange, rfl, rfl⟩
  | txDrainDone inDrain drained => exact ⟨_, .txDrainDone inDrain drained, rfl, rfl⟩
  | txRelease inRelease => exact ⟨_, .txRelease inRelease, rfl, rfl⟩
  | lineByte queued => exact ⟨_, .lineByte queued, rfl, rfl⟩
  | ioError sending => exact ⟨_, .ioError sending, rfl, rfl⟩
  | _ => cases hblock

/-- Settles O43: `EventStep.congr_host`. -/
theorem hostCannotSeeDevice : Obligations.HostCannotSeeDevice := by
  intro i s s' t hblock hhb hdraws h
  obtain ⟨t', ht', hsame⟩ := (eventStep_of_exec h).congr_host hblock hhb hdraws
  exact ⟨t', exec_of_eventStep ht', hsame⟩

/-! ### The wire -/

/-- R109: nothing but `LINE_BYTE` adds to the wire. -/
theorem EventStep.wire_of_ne {i : Instr} {s t : State} (h : EventStep s i t) (hi : i ≠ .lineByte) :
    t.wire = s.wire := by
  cases h with
  | lineByte => exact absurd rfl hi
  | _ => rfl

/-- R191: nothing but `LINE_BYTE`, `RX_BYTE` and `DEV_INIT` touches the bytes waiting for the
device. -/
theorem EventStep.bus_of_ne {i : Instr} {s t : State} (h : EventStep s i t) (hline : i ≠ .lineByte)
    (hrx : ∀ b, i ≠ .rxByte b) (hinit : i ≠ .devInit) : t.bus = s.bus := by
  cases h with
  | lineByte => exact absurd rfl hline
  | rxFirst b | rxMiddle b | rxLast b => exact absurd rfl (hrx b)
  | devInit => exact absurd rfl hinit
  | _ => rfl

/-- R191: a received byte is taken off the bus as `busTake` says. -/
theorem EventStep.bus_of_rxByte {b : Byte} {s t : State} (h : EventStep s (.rxByte b) t) :
    t.bus = busTake s.bus b := by
  cases h <;> rfl

/-- Settles O44: the row of `LINE_BYTE`, the bus after a received byte and after a boot, and the
rest that leaves wire and bus alone. -/
theorem wireCarriesDrivenBytes : Obligations.WireCarriesDrivenBytes := by
  intro i s t h
  have hstep := eventStep_of_exec h
  refine ⟨?line, ?rx, ?boot, hstep.wire_of_ne, hstep.bus_of_ne⟩
  case line =>
    rintro rfl
    cases hstep with
    | lineByte queued => exact ⟨_, _, queued, rfl, rfl⟩
  case rx =>
    rintro b rfl
    rw [hstep.bus_of_rxByte]
    exact (busTake_cases s.bus b).imp id fun ⟨hsame, hhead⟩ => ⟨hsame.symm, hhead⟩
  case boot =>
    rintro rfl
    cases hstep
    rfl

/-- R191, R53: a byte that leaves with `DE = 1` joins both the bus and what has been emitted. -/
theorem busAfter_suffix {bus : List Byte} {wire : List WireByte} (h : bus <:+ onBus wire) (b : Byte)
    (de : Bool) : busAfter bus b de <:+ onBus (wire ++ [⟨b, de⟩]) := by
  rw [onBus_append]
  cases de with
  | false => simpa [busAfter_false, onBus] using h
  | true =>
    obtain ⟨older, hbus⟩ := h
    exact ⟨older, by rw [← hbus, busAfter_true, ← List.append_assoc]; rfl⟩

/-- R191, R53: every event keeps the waiting bytes a suffix of the emitted ones. -/
theorem EventStep.bus_suffix {i : Instr} {s t : State} (h : EventStep s i t)
    (hbus : s.bus <:+ onBus s.wire) : t.bus <:+ onBus t.wire := by
  cases h with
  | lineByte queued => exact busAfter_suffix hbus _ _
  | rxFirst b | rxMiddle b | rxLast b => exact (busTake_suffix s.bus b).trans hbus
  | devInit => exact List.nil_suffix
  | _ => exact hbus

/-- Settles O45: `EventStep.bus_suffix` for the event that the step takes. -/
theorem busKeepsEmissionOrder : Obligations.BusKeepsEmissionOrder := by
  intro s t hbus h
  obtain ⟨i, rest, -, hexec⟩ := step_next s t h
  exact (eventStep_of_exec hexec).bus_suffix hbus

/-! ### The contexts of the device -/

/-- R181: the handler of byte-received writes nothing of the output side. -/
theorem EventStep.db_of_rxByte {b : Byte} {s t : State} (h : EventStep s (.rxByte b) t) :
    t.db = { s.db with
      rxState := t.db.rxState, rxCnt := t.db.rxCnt, dataReady := t.db.dataReady,
      staging := t.db.staging, tmrArmed := t.db.tmrArmed, tmrCnt := t.db.tmrCnt } := by
  cases h <;> rfl

/-- R181: the PWM routine writes no register of the receiver but the flag. -/
theorem EventStep.db_of_pwmStep {s t : State} (h : EventStep s .pwmStep t) :
    t.db = { s.db with
      phase := t.db.phase, out := t.db.out, active := t.db.active, dataReady := t.db.dataReady,
      rxIntEn := t.db.rxIntEn, raised := t.db.raised } := by
  cases h <;> rfl

/-- R181: the PWM routine only clears the flag. -/
theorem EventStep.dataReady_of_pwmStep {s t : State} (h : EventStep s .pwmStep t)
    (hready : t.db.dataReady = true) : s.db.dataReady = true := by
  cases h with
  | pwmTransfers => cases hready
  | _ => exact hready

/-- Settles O41: one lemma a context; a tick writes what `countDown_eq` says. -/
theorem contextsWriteOnlyTheirRegisters : Obligations.ContextsWriteOnlyTheirRegisters := by
  refine ⟨fun b s t h => (eventStep_of_exec h).db_of_rxByte, fun s t h => ?_, fun s t h => ?_⟩
  · obtain rfl := execTick_next h
    exact countDown_eq s.db
  · have hstep := eventStep_of_exec h
    exact ⟨hstep.db_of_pwmStep, hstep.dataReady_of_pwmStep⟩

/-! ### After a reset -/

/-- Settles O49: in the shape a reset leaves, the rows of the other events do not apply. -/
theorem afterResetOnlyBootEvents : Obligations.AfterResetOnlyBootEvents := by
  intro i s t hclosed hq harmed hen hoff hraised h
  cases eventStep_of_exec h with
  | resetHost | resetDevice => exact .inl ⟨_, rfl⟩
  | btInitOpens | btInitOpenFails | btInitCloses => exact .inr (.inl ⟨_, _, _, _, rfl⟩)
  | devInit => exact .inr (.inr (.inl rfl))
  | ckCreate | ckVerify | encoded | encodeFails | decoded | decodeFails => simp
  | tick => simp [countDown_stopped s.db harmed]
  | sendAccepted _ _ ready | sendRejected _ _ ready | btShutdown _ _ ready =>
    simp [hclosed] at ready
  | txAssert inState | txWrite inState | txDrainDone inState | txRelease inState =>
    simp [hclosed] at inState
  | lineByte queued => simp [hq] at queued
  | ioError sending => simp [hclosed] at sending
  | rxFirst _ enabled | rxMiddle _ enabled | rxLast _ enabled => simp [hen] at enabled
  | pwmCounts booted | pwmWraps booted | pwmTransfers booted => simp [hoff] at booted
  | idleTimeout raised | transferCopies raised | transferIdles raised => simp [hraised] at raised

end Sys2Proof.Machine
end

section
/-! ## The inner steps and the output side (spec/43_frame_receiver.md R135, R141,
spec/44_pwm_engine.md) -/

namespace Sys2Proof.Machine

/-! ### `IDLE_TIMEOUT` and `TRANSFER` -/

/-- R26, R174: one period of the idle timer leaves nothing pending that was not. -/
theorem countDown_raised (d : DB) : d.countDown.raised = d.raised ∨ d.countDown.raised = none := by
  obtain ⟨-, hd⟩ | ⟨-, -, hd⟩ | ⟨-, -, hd⟩ := countDown_cases d <;> rw [hd]
  · exact .inl rfl
  · exact .inl rfl
  · exact .inr rfl

/-- R26, R174: no event leaves an inner step pending that was not. -/
theorem EventStep.raised {i : Instr} {s t : State} (h : EventStep s i t) :
    t.db.raised = s.db.raised ∨ t.db.raised = none := by
  cases h with
  | tick => exact countDown_raised s.db
  | resetDevice | pwmWraps | pwmTransfers | idleTimeout | transferCopies | transferIdles =>
    exact .inr rfl
  | _ => exact .inl rfl

theorem EventStep.raised_ne {i : Instr} {s t : State} (h : EventStep s i t) {inner : InnerStep}
    (hne : s.db.raised ≠ some inner) : t.db.raised ≠ some inner := by
  rcases h.raised with hr | hr <;> rw [hr]
  · exact hne
  · simp

/-- R134, R135: the last tick does what the timeout it raises does. -/
theorem exec_tick_of_last {s : State} (harmed : s.db.tmrArmed = true) (hcnt : s.db.tmrCnt = 1) :
    exec .tick s = exec .idleTimeout { s with
      db := { s.db with tmrCnt := 0, raised := some .idleTimeout } } := by
  rw [exec_tick, countDown_expires s.db harmed hcnt.le, exec_idleTimeout_of_raised rfl]

/-- R141: one period of the idle timer, but for the count, is nothing or the coarser timeout. -/
theorem countDown_eq_or_coarseTimeout {d : DB} (inv : DeviceInv d) :
    d.countDown = { d with tmrCnt := d.countDown.tmrCnt } ∨
      d.coarseTimeout = some { d.countDown with tmrCnt := d.tmrCnt } := by
  obtain ⟨-, hd⟩ | ⟨-, -, hd⟩ | ⟨harmed, -, hd⟩ := countDown_cases d <;> rw [hd]
  · exact .inl rfl
  · exact .inl rfl
  · right
    rw [DB.coarseTimeout, if_pos (inv.timerActive.mp harmed), timeOut_eq]
    simp [inv.nothingRaised]

/-- Settles O25: the step of a raised timeout, the tick that raises it, and the two facts about
every event and every period. -/
theorem idleTimeoutDiscardsSilently : Obligations.IdleTimeoutDiscardsSilently :=
  ⟨fun _ => ⟨exec_idleTimeout_of_raised, fun h => if_neg h, exec_tick_of_last⟩,
    fun _ _ _ hne h => (eventStep_of_exec h).raised_ne hne,
    fun _ => countDown_eq_or_coarseTimeout⟩

/-- R151, R156: the `PWM_STEP` at the boundary ends with what the transfer it raises does. -/
theorem exec_pwmStep_of_boundary {s : State} (hinit : s.db.devInit = true)
    (hphase : s.db.phase = 255) : exec .pwmStep s = exec .transfer { s with
      db := { s.db with
        out := pwmOutputs s.db.active 255, phase := 0, raised := some .transfer } } := by
  rw [exec_pwmStep_of_devInit hinit, exec_transfer_of_raised rfl]
  simp [hphase]

/-- Settles O34: the two rows of a raised transfer, the `PWM_STEP` that raises it, and the fact
about every event. -/
theorem transferCopiesWaitingFrame : Obligations.TransferCopiesWaitingFrame :=
  ⟨fun _ => ⟨fun hraised hready => exec_of_eventStep (.transferCopies hraised hready),
      fun hraised hready => exec_of_eventStep (.transferIdles hraised hready),
      fun h => if_neg h, exec_pwmStep_of_boundary⟩,
    fun _ _ _ hne h => (eventStep_of_exec h).raised_ne hne⟩

/-! ### What writes `active`, `out` and `phase` -/

@[simp] theorem countDown_active (d : DB) : d.countDown.active = d.active := by rw [countDown_eq]
@[simp] theorem countDown_out (d : DB) : d.countDown.out = d.out := by rw [countDown_eq]
@[simp] theorem countDown_phase (d : DB) : d.countDown.phase = d.phase := by rw [countDown_eq]
@[simp] theorem countDown_devInit (d : DB) : d.countDown.devInit = d.devInit := by
  rw [countDown_eq]

/-- R157: `active` stays, or is replaced by `staging` in a transfer, or is darkened by a reset. -/
theorem EventStep.active {i : Instr} {s t : State} (h : EventStep s i t) :
    t.db.active = s.db.active ∨
    (((i = .pwmStep ∧ s.db.phase = 255) ∨ (i = .transfer ∧ s.db.raised = some .transfer)) ∧
      s.db.dataReady = true ∧ t.db.active = s.db.staging ∧ t.db.dataReady = false) ∨
    (i = .reset .db ∧ t.db.active = Vector.replicate 30 0) := by
  cases h with
  | resetDevice => exact .inr (.inr ⟨rfl, rfl⟩)
  | tick => exact .inl (countDown_active s.db)
  | pwmTransfers booted boundary waiting =>
    exact .inr (.inl ⟨.inl ⟨rfl, boundary⟩, waiting, rfl, rfl⟩)
  | transferCopies raised waiting => exact .inr (.inl ⟨.inr ⟨rfl, raised⟩, waiting, rfl, rfl⟩)
  | _ => exact .inl rfl

/-- Settles O35: `EventStep.active`. -/
theorem activeChangesOnlyAsAWhole : Obligations.ActiveChangesOnlyAsAWhole :=
  fun _ _ _ h => (eventStep_of_exec h).active

/-- R16, R165: only `PWM_STEP` and a reset of the device write the outputs and the phase. -/
theorem EventStep.out_phase_of_ne {i : Instr} {s t : State} (h : EventStep s i t)
    (hpwm : i ≠ .pwmStep) (hreset : i ≠ .reset .db) :
    t.db.out = s.db.out ∧ t.db.phase = s.db.phase := by
  cases h with
  | resetDevice => exact absurd rfl hreset
  | pwmCounts | pwmWraps | pwmTransfers => exact absurd rfl hpwm
  | tick => exact ⟨countDown_out s.db, countDown_phase s.db⟩
  | _ => exact ⟨rfl, rfl⟩

/-- Settles O37: `EventStep.out_phase_of_ne`. -/
theorem onlyPwmStepWritesOutputs : Obligations.OnlyPwmStepWritesOutputs :=
  fun _ _ _ h => (eventStep_of_exec h).out_phase_of_ne

/-- Settles O39: the search over the channels finds the one of the pin, since the map is injective,
and none where there is none. -/
theorem pinsCarryTheirChannels : Obligations.PinsCarryTheirChannels := by
  intro d
  constructor
  · intro i
    have hfind : (List.finRange 30).find?
        (fun j => Config.pinMap.pin j = Config.pinMap.pin i) = some i := by
      cases hf : (List.finRange 30).find? fun j => Config.pinMap.pin j = Config.pinMap.pin i with
      | none => simpa using List.find?_eq_none.mp hf i (List.mem_finRange i)
      | some j =>
        exact congrArg some (Config.pinMap.injective (by simpa using List.find?_some hf))
    simp [DB.pinLevel, hfind]
  · intro p hnone
    have hfind : (List.finRange 30).find? (fun j => Config.pinMap.pin j = p) = none := by
      simpa using hnone
    simp [DB.pinLevel, hfind]

end Sys2Proof.Machine
end

section
/-! ## Cycles of the PWM engine (spec/44_pwm_engine.md R154, R155, R162, spec/20_memory.md R48) -/

namespace Sys2Proof.Machine

/-! ### Edges -/

/-- R153: one step of `phase` is one step of the staggered count. -/
theorem staggeredCount_sub_one (phase : BitVec 8) (i : Nat) :
    staggeredCount (phase - 1) i = staggeredCount phase i - 1 := by
  simp only [staggeredCount]
  bv_omega

/-- R153: the staggered count has a value at exactly one phase. -/
theorem staggeredCount_eq_iff (phase v : BitVec 8) (i : Nat) :
    staggeredCount phase i = v ↔ phase = v - BitVec.ofNat 8 (8 * i) := by
  simp only [staggeredCount, Config.stagger]
  constructor <;> intro h <;> bv_omega

/-- R155: a comparison with a brightness becomes true at 0 and false at the brightness. -/
theorem ult_edges (c v : BitVec 8) (hv : v ≠ 0) :
    (((c - 1).ult v = false ∧ c.ult v = true) ↔ c = 0) ∧
    (((c - 1).ult v = true ∧ c.ult v = false) ↔ c = v) := by
  simp only [BitVec.ult, decide_eq_true_eq, decide_eq_false_iff_not]
  constructor <;> constructor <;> intro h <;> bv_omega

/-- Settles O33: the edges of the comparison, at the phases with that staggered count. -/
theorem channelEdges : Obligations.ChannelEdges := by
  intro v i phase hv
  simp only [pwmLevel, staggeredCount_sub_one, ← staggeredCount_eq_iff]
  exact ult_edges _ v hv

/-! ### Duty -/

/-- Over one period from 0, as many residues as there are below `v`. -/
theorem count_mod_lt {v : Nat} (hv : v ≤ 256) : Nat.count (fun k => k % 256 < v) 256 = v := by
  have hlow : Nat.count (fun k => k % 256 < v) v = v :=
    Nat.count_iff_forall.mpr fun k hk => by omega
  have hhigh : Nat.count (fun k => (v + k) % 256 < v) (256 - v) = 0 :=
    Nat.count_iff_forall_not.mpr fun k hk => by omega
  have hsplit := Nat.count_add (fun k => k % 256 < v) v (256 - v)
  rwa [Nat.add_sub_cancel' hv, hlow, hhigh] at hsplit

/-- Over one period from anywhere, as many: what `c` steps leave at the front they add at the
end. -/
theorem count_add_mod_lt (c : Nat) {v : Nat} (hv : v ≤ 256) :
    Nat.count (fun k => (c + k) % 256 < v) 256 = v := by
  have hfront := Nat.count_add (fun k => k % 256 < v) c 256
  have hback := Nat.count_add (fun k => k % 256 < v) 256 c
  simp only [Nat.add_mod_left, count_mod_lt hv] at hback
  rw [Nat.add_comm c 256] at hfront
  omega

/-- R151: `phase` counts modulo 256 through a `PWM_STEP`, wherever it stands. -/
theorem EventStep.phase_of_pwmStep {s t : State} (h : EventStep s .pwmStep t) :
    t.db.phase = s.db.phase + 1 := by
  cases h with
  | pwmCounts => rfl
  | pwmWraps _ boundary | pwmTransfers _ boundary => rw [boundary]; rfl

/-- R151: the outputs are compared with the old `phase` and the old `active`. -/
theorem EventStep.out_of_pwmStep {s t : State} (h : EventStep s .pwmStep t) :
    t.db.out = pwmOutputs s.db.active s.db.phase := by
  cases h <;> rfl

/-- R156: away from the boundary `active` stays. -/
theorem EventStep.active_of_pwmStep {s t : State} (h : EventStep s .pwmStep t)
    (hphase : s.db.phase ≠ 255) : t.db.active = s.db.active := by
  cases h with
  | pwmCounts | pwmWraps => rfl
  | pwmTransfers _ boundary => exact absurd boundary hphase

theorem EventStep.devInit_of_pwmStep {s t : State} (h : EventStep s .pwmStep t) :
    t.db.devInit = true := by
  cases h <;> assumption

/-- R154: one `PWM_STEP` counts when the channel is high at it. -/
theorem highSteps_succ (i : Fin 30) (n : Nat) {s t : State} (h : exec .pwmStep s = .next t) :
    highSteps i (n + 1) s = highSteps i n t +
      if (s.db.phase.toNat + 8 * i.val) % 256 < (s.db.active[i]).toNat then 1 else 0 := by
  simp only [highSteps, h, (eventStep_of_exec h).out_of_pwmStep, pwmOutputs_getElem_iff,
    Nat.add_comm]

/-- R154: within a cycle, the steps at which a channel is high are those whose staggered count is
below its brightness. -/
theorem highSteps_eq_count (i : Fin 30) (n : Nat) {s : State} (hinit : s.db.devInit = true)
    (hn : s.db.phase.toNat + n ≤ 256) : highSteps i n s = Nat.count
      (fun k => (s.db.phase.toNat + 8 * i.val + k) % 256 < (s.db.active[i]).toNat) n := by
  induction n generalizing s with
  | zero => rfl
  | succ n ih =>
    obtain ⟨t, ht⟩ := exec_pwmStep_exists_next hinit
    have hstep := eventStep_of_exec ht
    rw [highSteps_succ i n ht, Nat.count_succ']
    congr 1
    rcases Nat.eq_zero_or_pos n with rfl | hpos
    · rfl
    · have hphase : s.db.phase ≠ 255 := fun h => by simp [h] at hn; omega
      have hnext : t.db.phase.toNat = s.db.phase.toNat + 1 := by
        rw [hstep.phase_of_pwmStep]; bv_omega
      rw [ih hstep.devInit_of_pwmStep (by omega), hstep.active_of_pwmStep hphase, hnext]
      congr! 3
      omega

/-- R72: any number of `PWM_STEP`s runs to its end, and `phase` counts them. -/
theorem runEvents_steps (n : Nat) {s : State} (hinit : s.db.devInit = true) :
    ∃ t, runEvents (steps n) s = .next t ∧ t.db.phase = s.db.phase + BitVec.ofNat 8 n := by
  induction n generalizing s with
  | zero => exact ⟨s, rfl, by simp⟩
  | succ n ih =>
    obtain ⟨m, hm⟩ := exec_pwmStep_exists_next hinit
    have hstep := eventStep_of_exec hm
    obtain ⟨t, ht, hphase⟩ := ih hstep.devInit_of_pwmStep
    refine ⟨t, (runEvents_cons_next hm).trans ht, ?_⟩
    rw [hphase, hstep.phase_of_pwmStep]
    bv_omega

/-- Settles O32: the steps of a cycle at which the channel is high are one period of a comparison
with its brightness, and 256 steps of `phase` are none. -/
theorem dutyIsBrightness : Obligations.DutyIsBrightness := by
  intro s i hinit hphase
  constructor
  · rw [highSteps_eq_count i 256 hinit (by simp [hphase])]
    exact count_add_mod_lt _ (s.db.active[i]).isLt.le
  · obtain ⟨t, ht, hcount⟩ := runEvents_steps 256 hinit
    exact ⟨t, ht, by rw [hcount, hphase]; rfl⟩

/-! ### Darkness -/

/-- R162: nothing is shown: all brightnesses are 0 and all outputs are low. -/
structure Dark (d : DB) : Prop where
  active : d.active = Vector.replicate 30 0
  out : d.out = Vector.replicate 30 false

/-- R163: a brightness of 0 is below no staggered count. -/
theorem pwmOutputs_dark (phase : BitVec 8) :
    pwmOutputs (Vector.replicate 30 0) phase = Vector.replicate 30 false := by
  ext i hi
  simp [pwmOutputs, pwmLevel, BitVec.ult]

/-- R162, R165: an event of a dark device keeps the outputs low. -/
theorem EventStep.out_of_dark {i : Instr} {s t : State} (h : EventStep s i t) (hdark : Dark s.db) :
    t.db.out = Vector.replicate 30 false := by
  by_cases hpwm : i = .pwmStep
  · subst hpwm
    rw [h.out_of_pwmStep, hdark.active, pwmOutputs_dark]
  by_cases hreset : i = .reset .db
  · subst hreset
    cases h
    rfl
  · rw [(h.out_phase_of_ne hpwm hreset).1, hdark.out]

/-- R162: an event of a dark device keeps it dark, unless it is the transfer of a waiting frame. -/
theorem EventStep.active_of_dark {i : Instr} {s t : State} (h : EventStep s i t)
    (hdark : Dark s.db) : t.db.active = Vector.replicate 30 0 ∨
      (s.db.dataReady = true ∧ ((i = .pwmStep ∧ s.db.phase = 255) ∨
        (i = .transfer ∧ s.db.raised = some .transfer))) := by
  rcases h.active with hsame | ⟨hboundary, hready, -⟩ | ⟨-, hreset⟩
  · exact .inl (hsame.trans hdark.active)
  · exact .inr ⟨hready, hboundary⟩
  · exact .inl hreset

/-- R151, R165: no event moves `phase` forward but a `PWM_STEP`, which moves it by one or to 0. -/
theorem EventStep.phase_le {i : Instr} {s t : State} (h : EventStep s i t) :
    t.db.phase.toNat ≤ s.db.phase.toNat + if i = .pwmStep then 1 else 0 := by
  by_cases hpwm : i = .pwmStep
  · subst hpwm
    rw [h.phase_of_pwmStep]
    simp only [if_true]
    bv_omega
  by_cases hreset : i = .reset .db
  · subst hreset
    cases h
    exact Nat.zero_le _
  · simp [(h.out_phase_of_ne hpwm hreset).2]

/-- R162: with nothing pending and too few `PWM_STEP`s to reach the boundary, the device stays
dark. -/
theorem runEvents_dark {events : List Instr} {s t : State} (hdark : Dark s.db)
    (hraised : s.db.raised = none) (hcount : s.db.phase.toNat + events.count .pwmStep < 256)
    (h : runEvents events s = .next t) : Dark t.db := by
  induction events generalizing s with
  | nil => cases h; exact hdark
  | cons i is ih =>
    obtain ⟨m, hm, ht⟩ := runEvents_cons_inv h
    have hstep := eventStep_of_exec hm
    have hphase := hstep.phase_le
    rw [List.count_cons] at hcount
    have hraised' : m.db.raised = none := by rcases hstep.raised with hr | hr <;> simp [hr, hraised]
    have hactive : m.db.active = Vector.replicate 30 0 := by
      rcases hstep.active_of_dark hdark with hactive | ⟨-, ⟨rfl, hboundary⟩ | ⟨-, hpending⟩⟩
      · exact hactive
      · simp [hboundary] at hcount
        omega
      · simp [hraised] at hpending
    refine ih ⟨hactive, hstep.out_of_dark hdark⟩ hraised' ?_ ht
    simp only [beq_iff_eq] at hcount
    omega

/-- R162: with no frame waiting, `PWM_STEP`s alone keep a dark device dark. -/
theorem runEvents_steps_dark {n : Nat} {s t : State} (hdark : Dark s.db)
    (hready : s.db.dataReady = false) (h : runEvents (steps n) s = .next t) : Dark t.db := by
  have hkeep : ∀ i s t, i = Instr.pwmStep → (Dark s.db ∧ s.db.dataReady = false) →
      exec i s = .next t → Dark t.db ∧ t.db.dataReady = false := by
    rintro _ s t rfl ⟨hdark, hready⟩ h
    have hstep := eventStep_of_exec h
    have hactive := (hstep.active_of_dark hdark).resolve_right (by simp [hready])
    refine ⟨⟨hactive, hstep.out_of_dark hdark⟩, ?_⟩
    rw [← Bool.not_eq_true]
    exact fun hset => by simp [hstep.dataReady_of_pwmStep hset] at hready
  exact (runEvents_keeps hkeep (fun i hi => List.eq_of_mem_replicate hi) ⟨hdark, hready⟩ h).1

/-- Settles O38: the two facts about one event, `runEvents_dark` from phase 0, and the steps after
boot. -/
theorem darkUntilFirstTransfer : Obligations.DarkUntilFirstTransfer := by
  refine ⟨?event, ?run, ?boot⟩
  case event =>
    intro i s t hactive hout h
    have hstep := eventStep_of_exec h
    exact ⟨hstep.out_of_dark ⟨hactive, hout⟩, hstep.active_of_dark ⟨hactive, hout⟩⟩
  case run =>
    intro events s t hactive hout hphase hraised hcount h
    have hdark := runEvents_dark ⟨hactive, hout⟩ hraised (by simpa [hphase] using hcount) h
    exact ⟨hdark.active, hdark.out⟩
  case boot =>
    intro n
    have hboot := exec_devInit_of_not_devInit (s := State.reset) rfl
    obtain ⟨t, ht, hphase⟩ := runEvents_steps n (s := { State.reset with
      db := { State.reset.db with devInit := true, rxIntEn := true }
      bus := []
      result := none }) rfl
    have hdark := runEvents_steps_dark ⟨rfl, rfl⟩ rfl ht
    refine ⟨t, (runEvents_cons_next hboot).trans ht, fun i => by simp [hdark.out], ?_⟩
    rw [hphase]
    exact BitVec.zero_add _

/-! ### Handlers and comparisons -/

/-- R48: the handler of byte-received and the comparisons commute. -/
theorem receive_compareAndCount (d : DB) (b : Byte) :
    d.compareAndCount.receive b = (d.receive b).map DB.compareAndCount := by
  cases hstate : d.rxState with
  | idle => rw [receive_idle d b hstate, receive_idle d.compareAndCount b hstate]; rfl
  | active =>
    rcases Nat.lt_trichotomy d.rxCnt 29 with hcnt | hcnt | hcnt
    · rw [receive_middle d b hstate hcnt, receive_middle d.compareAndCount b hstate hcnt]; rfl
    · rw [receive_last d b hstate hcnt, receive_last d.compareAndCount b hstate hcnt]; rfl
    · rw [receive_outOfRange d b hstate hcnt, receive_outOfRange d.compareAndCount b hstate hcnt]
      rfl

/-- R131: with the interrupt source enabled, the handler's fault is the step's. -/
theorem exec_rxByte_of_error {b : Byte} {s : State} {reason : Fault} (hen : s.db.rxIntEn = true)
    (h : s.db.receive b = .error reason) : exec (.rxByte b) s = .fault reason := by
  simp only [exec, execRxByte, hen, if_true, enterInterrupt_eq, h]

/-- R151: away from the boundary, a `PWM_STEP` is the comparisons and the count. -/
theorem exec_pwmStep_of_inside {s : State} (hinit : s.db.devInit = true)
    (hphase : s.db.phase ≠ 255) :
    exec .pwmStep s = .next { s with db := s.db.compareAndCount, result := none } :=
  exec_of_eventStep (.pwmCounts hinit hphase)

/-- R48: a byte before or after a `PWM_STEP` away from the boundary. -/
theorem runEvents_rxByte_pwmStep_comm (b : Byte) {s : State} (hinit : s.db.devInit = true)
    (hen : s.db.rxIntEn = true) (hphase : s.db.phase ≠ 255) :
    runEvents [.rxByte b, .pwmStep] s = runEvents [.pwmStep, .rxByte b] s := by
  have hcomm := receive_compareAndCount s.db b
  rw [runEvents_cons_next (exec_pwmStep_of_inside hinit hphase)]
  cases hr : s.db.receive b with
  | error reason =>
    have hrx := exec_rxByte_of_error hen hr
    have hrx' := exec_rxByte_of_error (s := { s with db := s.db.compareAndCount, result := none })
      hen (by rw [hcomm, hr]; rfl)
    simp only [runEvents, hrx, hrx']
  | ok d =>
    have hrx := exec_rxByte_of_ok hen hr
    have hrx' := exec_rxByte_of_ok (s := { s with db := s.db.compareAndCount, result := none })
      hen (by rw [hcomm, hr]; rfl)
    have hd : d = { s.db with
        rxState := d.rxState, rxCnt := d.rxCnt, dataReady := d.dataReady, staging := d.staging,
        tmrArmed := d.tmrArmed, tmrCnt := d.tmrCnt } := (eventStep_of_exec hrx).db_of_rxByte
    have hpwm := exec_pwmStep_of_inside
      (s := { s with db := d, bus := busTake s.bus b, result := none })
      (by rw [hd]; exact hinit) (by rw [hd]; exact hphase)
    rw [runEvents_cons_next hrx, runEvents_cons_next hpwm, runEvents_cons_next hrx']

/-- R48: one period of the idle timer and the PWM routine commute: neither reads what the other
writes, and what both write, the marker of what is pending, both clear. -/
theorem countDown_output_comm (d : DB) (active : Vector Byte 30) (phase : BitVec 8)
    (out : Vector Bool 30) (ready enabled : Bool) (wraps : Prop) [Decidable wraps] :
    { d with active := active, phase := phase, out := out, dataReady := ready, rxIntEn := enabled,
             raised := if wraps then none else d.raised }.countDown
      = { d.countDown with
          active := active, phase := phase, out := out, dataReady := ready, rxIntEn := enabled,
          raised := if wraps then none else d.countDown.raised } := by
  obtain ⟨harmed, hd⟩ | ⟨harmed, hcnt, hd⟩ | ⟨harmed, hcnt, hd⟩ := countDown_cases d <;> rw [hd]
  · exact countDown_stopped _ harmed
  · exact countDown_running _ harmed hcnt
  · rw [ite_self]
    exact countDown_expires _ harmed hcnt

/-- R48: a tick before or after any `PWM_STEP`. -/
theorem runEvents_tick_pwmStep_comm {s : State} (hinit : s.db.devInit = true) :
    runEvents [.tick, .pwmStep] s = runEvents [.pwmStep, .tick] s := by
  have hpwm := exec_pwmStep_of_devInit (s := { s with db := s.db.countDown, result := none })
    ((countDown_devInit s.db).trans hinit)
  rw [runEvents_cons_next (exec_tick s), runEvents_cons_next hpwm,
    runEvents_cons_next (exec_pwmStep_of_devInit hinit), runEvents_cons_next (exec_tick _),
    countDown_output_comm]
  simp only [countDown_active, countDown_phase, countDown_dataReady, countDown_staging,
    countDown_rxIntEn]

/-- Settles O40: the two commutations. -/
theorem handlersCommuteWithComparisons : Obligations.HandlersCommuteWithComparisons :=
  fun _ hinit hen => ⟨fun b hphase => runEvents_rxByte_pwmStep_comm b hinit hen hphase,
    runEvents_tick_pwmStep_comm hinit⟩

end Sys2Proof.Machine
end

section
/-! ## What the receiver collects (spec/43_frame_receiver.md R133, R136, R138,
spec/70_reset_and_hazards.md R210) -/

namespace Sys2Proof.Machine

/-! ### Runs that end as they should -/

/-- The run of `is` from `s` goes to its end, in a state that meets `P`. -/
def Reaches (is : List Instr) (s : State) (P : State → Prop) : Prop :=
  ∃ t, runEvents is s = .next t ∧ P t

theorem Reaches.cons {i : Instr} {is : List Instr} {s : State} {P Q : State → Prop}
    (h : Reaches [i] s P) (next : ∀ t, P t → Reaches is t Q) : Reaches (i :: is) s Q := by
  obtain ⟨t, ht, hP⟩ := h
  obtain ⟨u, hu, hQ⟩ := next t hP
  exact ⟨u, (runEvents_append_next ht).trans hu, hQ⟩

theorem Reaches.append {is js : List Instr} {s : State} {P Q : State → Prop}
    (h : Reaches is s P) (next : ∀ t, P t → Reaches js t Q) : Reaches (is ++ js) s Q := by
  obtain ⟨t, ht, hP⟩ := h
  obtain ⟨u, hu, hQ⟩ := next t hP
  exact ⟨u, (runEvents_append_next ht).trans hu, hQ⟩

theorem Reaches.mono {is : List Instr} {s : State} {P Q : State → Prop} (h : Reaches is s P)
    (hPQ : ∀ t, P t → Q t) : Reaches is s Q := by
  obtain ⟨t, ht, hP⟩ := h
  exact ⟨t, ht, hPQ t hP⟩

/-- One row of `EventStep` is a run. -/
theorem EventStep.reaches {i : Instr} {s t : State} {P : State → Prop} (h : EventStep s i t)
    (hP : P t) : Reaches [i] s P :=
  ⟨t, runEvents_cons_next (exec_of_eventStep h), hP⟩

/-! ### The four situations of the receiver -/

/-- R131: the interrupt source is on and no frame is in progress. -/
structure Listening (d : DB) : Prop where
  enabled : d.rxIntEn = true
  idle : d.rxState = .idle

/-- R131: the bytes `frame`, and no other, have come since the receiver was last Idle; they are a
partial frame, and `left` ticks are left to the idle timeout. -/
structure Collecting (frame : List Byte) (left : Nat) (d : DB) : Prop where
  enabled : d.rxIntEn = true
  active : d.rxState = .active
  count : d.rxCnt = frame.length
  stored : d.staging.toList.take d.rxCnt = frame
  notReady : d.dataReady = false
  armed : d.tmrArmed = true
  ticks : d.tmrCnt = left

/-- R131, R133: the thirty bytes `frame` have been collected, and wait. -/
structure Framed (frame : List Byte) (d : DB) : Prop extends Listening d where
  count : d.rxCnt = 30
  stored : d.staging.toList = frame
  ready : d.dataReady = true
  stopped : d.tmrArmed = false

/-- R135, R136: a partial frame of `count` bytes has been discarded. -/
structure Discarded (count : Nat) (d : DB) : Prop extends Listening d where
  count_eq : d.rxCnt = count
  notReady : d.dataReady = false
  stopped : d.tmrArmed = false

/-! ### One byte -/

/-- R131: a byte stored at index `n` stands behind the first `n` bytes. -/
theorem take_succ_toList_set (buf : Vector Byte 30) {n : Nat} (hn : n < 30) (b : Byte) :
    (buf.set n b).toList.take (n + 1) = buf.toList.take n ++ [b] := by
  rw [Vector.toList_set, List.take_add_one, List.take_set_of_le le_rfl]
  simp [hn]

/-- R131: the first byte of a frame. -/
theorem Listening.rxByte {s : State} (h : Listening s.db) (b : Byte) :
    Reaches [.rxByte b] s fun t => Collecting [b] Config.tIdle t.db :=
  (EventStep.rxFirst b h.enabled h.idle).reaches {
    enabled := h.enabled
    active := rfl
    count := rfl
    stored := take_succ_toList_set s.db.staging (by decide) b
    notReady := rfl
    armed := rfl
    ticks := rfl }

theorem feed_append (first second : List Byte) :
    feed (first ++ second) = feed first ++ feed second :=
  List.map_append

theorem feed_cons (b : Byte) (bytes : List Byte) :
    feed (b :: bytes) = .rxByte b :: feed bytes := rfl

section
variable {frame : List Byte} {left : Nat} {s : State} (h : Collecting frame left s.db)
include h

/-- R131: a further byte, not the last. -/
theorem Collecting.rxByte (hshort : frame.length ≤ 28) (b : Byte) :
    Reaches [.rxByte b] s fun t => Collecting (frame ++ [b]) Config.tIdle t.db := by
  have hcnt : s.db.rxCnt < 29 := by rw [h.count]; omega
  refine (EventStep.rxMiddle b h.enabled h.active hcnt).reaches {
    enabled := h.enabled
    active := h.active
    count := by simp [h.count]
    stored := ?_
    notReady := h.notReady
    armed := rfl
    ticks := rfl }
  rw [take_succ_toList_set, h.stored]

/-- R131: the last byte of a frame. -/
theorem Collecting.rxByte_last (hlast : frame.length = 29) (b : Byte) :
    Reaches [.rxByte b] s fun t => Framed (frame ++ [b]) t.db := by
  have hcnt : s.db.rxCnt = 29 := by rw [h.count, hlast]
  refine (EventStep.rxLast b h.enabled h.active hcnt).reaches {
    enabled := h.enabled
    idle := rfl
    count := rfl
    stored := ?_
    ready := rfl
    stopped := rfl }
  rw [← h.stored, hcnt, ← take_succ_toList_set s.db.staging (by decide) b, List.take_of_length_le]
  simp

/-- R133: bytes that do not complete the frame; any of them reloads the timer. -/
theorem Collecting.reaches_feed {bytes : List Byte} (hlen : frame.length + bytes.length ≤ 29) :
    Reaches (feed bytes) s fun t =>
      Collecting (frame ++ bytes) (if bytes = [] then left else Config.tIdle) t.db := by
  induction bytes generalizing frame left s with
  | nil => exact ⟨s, rfl, by simpa using h⟩
  | cons b bytes ih =>
    rw [List.length_cons] at hlen
    rw [feed_cons]
    refine (h.rxByte (by omega) b).cons fun t ht => ?_
    simpa using ih ht (by simp; omega)

/-- R133: bytes that complete the frame. -/
theorem Collecting.reaches_feed_last {bytes : List Byte} (hlen : frame.length + bytes.length = 30)
    (hshort : frame.length ≤ 29) :
    Reaches (feed bytes) s fun t => Framed (frame ++ bytes) t.db := by
  obtain ⟨init, last, rfl⟩ := List.eq_nil_or_concat' bytes |>.resolve_left fun hnil => by
    simp [hnil] at hlen; omega
  simp only [List.length_append, List.length_singleton] at hlen
  rw [feed_append, ← List.append_assoc]
  exact (h.reaches_feed (by omega)).append fun t ht => ht.rxByte_last (by simp; omega) last

end

/-- R133: some, but not thirty, bytes from Idle. -/
theorem Listening.reaches_feed {s : State} (h : Listening s.db) {bytes : List Byte}
    (hne : bytes ≠ []) (hlen : bytes.length ≤ 29) :
    Reaches (feed bytes) s fun t => Collecting bytes Config.tIdle t.db := by
  obtain ⟨b, bytes, rfl⟩ := List.exists_cons_of_ne_nil hne
  rw [List.length_cons] at hlen
  rw [feed_cons]
  refine (h.rxByte b).cons fun t ht => ?_
  simpa using ht.reaches_feed (bytes := bytes) (by simp; omega)

/-- R133: thirty bytes from Idle. -/
theorem Listening.reaches_feed_thirty {s : State} (h : Listening s.db) {bytes : List Byte}
    (hlen : bytes.length = 30) : Reaches (feed bytes) s fun t => Framed bytes t.db := by
  obtain ⟨b, bytes, rfl⟩ := List.exists_cons_of_length_eq_add_one hlen
  rw [List.length_cons] at hlen
  rw [feed_cons]
  exact (h.rxByte b).cons fun t ht =>
    ht.reaches_feed_last (by rw [List.length_singleton]; omega) (by simp)

/-! ### Pauses -/

theorem pause_succ (n : Nat) : pause (n + 1) = .tick :: pause n := rfl

/-- R134: with the timer stopped, a pause leaves the device block as it was. -/
theorem reaches_pause_of_stopped (n : Nat) {s : State} (h : s.db.tmrArmed = false) :
    Reaches (pause n) s fun t => t.db = s.db := by
  induction n generalizing s with
  | zero => exact ⟨s, rfl, rfl⟩
  | succ n ih =>
    rw [pause_succ]
    refine (EventStep.tick.reaches (P := fun t => t.db = s.db) (countDown_stopped s.db h)).cons
      fun t ht => ?_
    simpa only [ht] using ih (s := t) (by rw [ht, h])

section
variable {frame : List Byte} {left : Nat} {s : State} (h : Collecting frame left s.db)
include h

/-- R134: a tick that is not the last. -/
theorem Collecting.tick (hleft : 2 ≤ left) :
    Reaches [.tick] s fun t => Collecting frame (left - 1) t.db := by
  refine EventStep.tick.reaches ?_
  rw [countDown_running s.db h.armed (by rwa [h.ticks])]
  exact { h with ticks := by rw [← h.ticks] }

/-- R135: the last tick. -/
theorem Collecting.tick_last (hleft : left ≤ 1) :
    Reaches [.tick] s fun t => Discarded frame.length t.db := by
  refine EventStep.tick.reaches ?_
  rw [countDown_expires s.db h.armed (by rwa [h.ticks])]
  exact {
    enabled := h.enabled
    idle := rfl
    count_eq := h.count
    notReady := h.notReady
    stopped := rfl }

/-- R136: a pause shorter than what is left of the timeout. -/
theorem Collecting.reaches_pause {n : Nat} (hn : n < left) :
    Reaches (pause n) s fun t => Collecting frame (left - n) t.db := by
  induction n generalizing left s with
  | zero => exact ⟨s, rfl, h⟩
  | succ n ih =>
    rw [pause_succ]
    refine (h.tick (by omega)).cons fun t ht => ?_
    simpa only [Nat.sub_sub, Nat.add_comm 1 n] using ih ht (by omega)

/-- R136: a pause of what is left of the timeout, or longer. -/
theorem Collecting.reaches_pause_discarded {n : Nat} (hleft : 1 ≤ left) (hn : left ≤ n) :
    Reaches (pause n) s fun t => Discarded frame.length t.db := by
  have hsplit : pause n = pause (left - 1) ++ .tick :: pause (n - left) := by
    rw [← pause_succ, pause, pause, pause, ← List.replicate_add]
    congr 1
    omega
  rw [hsplit]
  refine (h.reaches_pause (by omega)).append fun t ht => ?_
  refine (ht.tick_last (by omega)).cons fun u hu => ?_
  exact (reaches_pause_of_stopped _ hu.stopped).mono fun v hv => by rwa [hv]

end

/-! ### Thirty bytes; a frame and a pause -/

/-- R131: received bytes leave the output side and the host block as they were. -/
theorem runEvents_feed_keeps {bytes : List Byte} {s t : State}
    (h : runEvents (feed bytes) s = .next t) :
    t.db.active = s.db.active ∧ t.db.phase = s.db.phase ∧ t.db.out = s.db.out ∧ t.hb = s.hb := by
  have hkeep : ∀ i u v, (∃ b, i = Instr.rxByte b) →
      (u.db.active = s.db.active ∧ u.db.phase = s.db.phase ∧ u.db.out = s.db.out ∧ u.hb = s.hb) →
      exec i u = .next v →
      v.db.active = s.db.active ∧ v.db.phase = s.db.phase ∧ v.db.out = s.db.out ∧ v.hb = s.hb := by
    rintro _ u v ⟨b, rfl⟩ hu h
    have hstep := eventStep_of_exec h
    rw [hstep.db_of_rxByte, (hstep.host_of_block_db rfl).1]
    exact hu
  refine runEvents_keeps hkeep (fun i hi => ?_) ⟨rfl, rfl, rfl, rfl⟩ h
  obtain ⟨b, -, rfl⟩ := List.mem_map.mp hi
  exact ⟨b, rfl⟩

/-- Settles O26: thirty bytes from Idle end in `Framed`, any fewer in `Collecting`. -/
theorem thirtyBytesMakeOneFrame : Obligations.ThirtyBytesMakeOneFrame := by
  intro bytes s hen hidle hlen
  have hlisten : Listening s.db := ⟨hen, hidle⟩
  constructor
  · obtain ⟨t, ht, hframed⟩ := hlisten.reaches_feed_thirty hlen
    exact ⟨t, ht, hframed.stored, hframed.idle, hframed.count, hframed.ready, hframed.stopped,
      runEvents_feed_keeps ht⟩
  · intro k hpos hk
    have htake : (bytes.take k).length = k := by rw [List.length_take]; omega
    have hne : bytes.take k ≠ [] := List.ne_nil_of_length_pos (by omega)
    refine (hlisten.reaches_feed hne (by omega)).mono fun t ht => ?_
    exact ⟨ht.notReady, ht.active, ht.count.trans htake⟩

/-- Settles O27: the pause ends in `Discarded`, from which the second burst is a frame of its own,
or in `Collecting`, in which the second burst goes on. -/
theorem pauseSeparatesFrames : Obligations.PauseSeparatesFrames := by
  intro first second n s hen hidle hpos hlen hsecond
  have hne : first ≠ [] := List.ne_nil_of_length_pos hpos
  have hfirst := Listening.reaches_feed ⟨hen, hidle⟩ hne hlen
  constructor
  case left =>
    intro hpause
    have hdiscarded : Reaches (feed first ++ pause n) s fun t => Discarded first.length t.db :=
      hfirst.append fun t ht => ht.reaches_pause_discarded one_le_tIdle hpause
    refine ⟨?_, fun k hk => ?_, ?_⟩
    · exact hdiscarded.mono fun t ht => ⟨ht.idle, ht.count_eq, ht.notReady⟩
    · refine hdiscarded.append fun t ht => ?_
      by_cases hempty : second.take k = []
      · rw [hempty]
        exact ⟨t, rfl, ht.notReady⟩
      · have htake : (second.take k).length ≤ 29 := by rw [List.length_take]; omega
        exact (ht.reaches_feed hempty htake).mono fun u hu => hu.notReady
    · exact hdiscarded.append fun t ht => (ht.reaches_feed_thirty hsecond).mono fun u hu =>
        ⟨hu.stored, hu.ready, hu.idle⟩
  case right =>
    intro hpause
    have hpaused : Reaches (feed first ++ pause n) s fun t =>
        Collecting first (Config.tIdle - n) t.db :=
      hfirst.append fun t ht => ht.reaches_pause hpause
    have htake : (second.take (30 - first.length)).length = 30 - first.length := by
      rw [List.length_take]; omega
    have hdrop : (second.drop (30 - first.length)).length = first.length := by
      rw [List.length_drop]; omega
    have hcompleted : Reaches (feed first ++ pause n ++ feed (second.take (30 - first.length))) s
        fun t => Framed (first ++ second.take (30 - first.length)) t.db :=
      hpaused.append fun t ht => ht.reaches_feed_last (by omega) hlen
    refine ⟨fun k hk => ?_, ?_, ?_⟩
    · refine hpaused.append fun t ht => ?_
      have hk' : (second.take k).length = k := by rw [List.length_take]; omega
      refine (ht.reaches_feed (bytes := second.take k) (by omega)).mono fun u hu => ?_
      exact ⟨hu.active, by rw [hu.count, List.length_append, hk'], hu.notReady⟩
    · exact hcompleted.mono fun t ht => ⟨ht.stored, ht.ready, ht.idle⟩
    · rw [← List.take_append_drop (30 - first.length) second, feed_append, ← List.append_assoc,
        List.take_append_drop]
      have hrest : second.drop (30 - first.length) ≠ [] := List.ne_nil_of_length_pos (by omega)
      refine hcompleted.append fun t ht => ?_
      refine (ht.reaches_feed hrest (by omega)).mono fun u hu => ?_
      have hcount : u.db.rxCnt = first.length := hu.count.trans hdrop
      have hstored := hu.stored
      rw [hcount] at hstored
      exact ⟨hu.active, hcount, hu.notReady, hstored⟩

/-! ### Bursts -/

/-- R133: a buffer holds thirty bytes. -/
theorem Framed.length {frame : List Byte} {d : DB} (h : Framed frame d) : frame.length = 30 := by
  rw [← h.stored, Vector.length_toList]

/-- R138: a burst from Idle ends in the last frame of its division into thirties. -/
theorem Listening.reaches_burst {s : State} (h : Listening s.db) {bytes : List Byte}
    (hne : bytes ≠ []) : Reaches (feed bytes) s fun t => ∃ frame, frame <:+ bytes ∧
      frame.length % 30 = bytes.length % 30 ∧
      (Framed frame t.db ∨
        (1 ≤ frame.length ∧ frame.length ≤ 29 ∧ Collecting frame Config.tIdle t.db)) := by
  rcases Nat.lt_trichotomy bytes.length 30 with hlen | hlen | hlen
  · refine (h.reaches_feed hne (by omega)).mono fun t ht => ?_
    exact ⟨bytes, List.suffix_rfl, rfl, .inr ⟨List.length_pos_of_ne_nil hne, by omega, ht⟩⟩
  · exact (h.reaches_feed_thirty hlen).mono fun t ht => ⟨bytes, List.suffix_rfl, rfl, .inl ht⟩
  · have htake : (bytes.take 30).length = 30 := by rw [List.length_take]; omega
    have hdrop : (bytes.drop 30).length = bytes.length - 30 := List.length_drop
    have hrest : bytes.drop 30 ≠ [] := List.ne_nil_of_length_pos (by omega)
    rw [← List.take_append_drop 30 bytes, feed_append, List.take_append_drop]
    refine (h.reaches_feed_thirty htake).append fun t ht => ?_
    refine (ht.toListening.reaches_burst hrest).mono fun u hu => ?_
    obtain ⟨frame, hsuffix, hmod, hend⟩ := hu
    exact ⟨frame, hsuffix.trans (List.drop_suffix 30 bytes), by omega, hend⟩
termination_by bytes.length
decreasing_by omega

/-- Settles O28: the burst ends in a whole frame, which the silence leaves waiting, or in a partial
one, which it discards. -/
theorem burstIsCutIntoThirties : Obligations.BurstIsCutIntoThirties := by
  intro bytes n s hen hidle hne hpause
  refine (Listening.reaches_burst ⟨hen, hidle⟩ hne).append fun t ht => ?_
  obtain ⟨frame, hsuffix, hmod, hframed | ⟨hpos, hshort, hcollecting⟩⟩ := ht
  · have hlen := hframed.length
    refine (reaches_pause_of_stopped n hframed.stopped).mono fun u hu => ?_
    rw [hu, hframed.stored]
    refine ⟨hframed.idle, iff_of_true hframed.ready (by omega), fun _ => ?_⟩
    rw [List.suffix_iff_eq_drop.mp hsuffix, hlen]
  · refine (hcollecting.reaches_pause_discarded one_le_tIdle hpause).mono fun u hu => ?_
    have hmod' : bytes.length % 30 ≠ 0 := by omega
    exact ⟨hu.idle, iff_of_false (by simp [hu.notReady]) hmod', fun h => absurd h hmod'⟩

/-! ### The wire frame -/

/-- R60: what the first thirty bytes of a wire frame with a payload of thirty are. -/
theorem take_thirty_frameBytes (source destination : Byte) {payload : List Byte}
    (hlen : payload.length = 30) : (frameBytes source destination payload).take 30
      = [0x40, destination, source, 0x1E] ++ payload.take 26 := by
  simp [frameBytes_eq, hlen, List.take_append]

/-- R60: the last four bytes of such a payload come after them. -/
theorem take_drop_thirty_frameBytes (source destination : Byte) {payload : List Byte}
    (hlen : payload.length = 30) : ((frameBytes source destination payload).drop 30).take 4
      = payload.drop 26 := by
  simp [frameBytes_eq, hlen, List.drop_append]

/-- Settles O29: the frame's first thirty bytes are framed, and the other five begin a frame. -/
theorem wireFrameMisfitsReceiver : Obligations.WireFrameMisfitsReceiver := by
  intro source destination payload s hen hidle hlen
  have hlisten : Listening s.db := ⟨hen, hidle⟩
  have hframe : (frameBytes source destination payload).length = 35 := by
    rw [frameBytes_length, hlen]
  have hfirst := hlisten.reaches_feed_thirty
    (bytes := (frameBytes source destination payload).take 30) (by rw [List.length_take]; omega)
  constructor
  · refine hfirst.mono fun t ht => ⟨ht.ready, ?_⟩
    rw [ht.stored, take_thirty_frameBytes source destination hlen]
  · have hdrop : ((frameBytes source destination payload).drop 30).length = 5 := by
      rw [List.length_drop, hframe]
    rw [← List.take_append_drop 30 (frameBytes source destination payload), feed_append]
    refine hfirst.append fun t ht => ?_
    have hne : (frameBytes source destination payload).drop 30 ≠ [] :=
      List.ne_nil_of_length_pos (by omega)
    refine (ht.reaches_feed hne (by omega)).mono fun u hu => ?_
    have hcount : u.db.rxCnt = 5 := hu.count.trans hdrop
    refine ⟨hu.notReady, hu.active, hcount, ?_⟩
    rw [← take_drop_thirty_frameBytes source destination hlen, ← hu.stored, hcount, List.take_take]
    rfl

end Sys2Proof.Machine
end

section
/-! ## A waiting frame is one whole frame (spec/10_state.md R28 item 5) -/

namespace Sys2Proof.Machine

/-- R28 item 5: `bytes` are the bytes of the frame in progress, or of the waiting one. -/
structure CollectedInv (bytes : List Byte) (d : DB) : Prop where
  device : DeviceInv d
  inProgress : d.rxState = .active → d.staging.toList.take d.rxCnt = bytes
  waiting : d.dataReady = true → d.staging.toList = bytes

/-- An event that is no received byte neither writes `staging` nor sets the flag nor starts a
frame. -/
theorem EventStep.staging_of_ne_rxByte {i : Instr} {s t : State} (h : EventStep s i t)
    (hi : ∀ b, i ≠ .rxByte b) (hreset : i ≠ .reset .db) : t.db.staging = s.db.staging ∧
      t.db.rxCnt = s.db.rxCnt ∧ (t.db.dataReady = true → s.db.dataReady = true) ∧
      (t.db.rxState = .active → s.db.rxState = .active) := by
  cases h with
  | resetDevice => exact absurd rfl hreset
  | rxFirst b | rxMiddle b | rxLast b => exact absurd rfl (hi b)
  | tick => obtain ⟨-, hd⟩ | ⟨-, -, hd⟩ | ⟨-, -, hd⟩ := countDown_cases s.db <;> simp [hd]
  | pwmTransfers | idleTimeout | transferCopies => simp
  | _ => exact ⟨rfl, rfl, id, id⟩

/-- R28 item 5: an event that is no received byte keeps the frame, or ends it. -/
theorem CollectedInv.of_ne_rxByte {i : Instr} {s t : State} {bytes : List Byte}
    (inv : CollectedInv bytes s.db) (h : EventStep s i t) (hi : ∀ b, i ≠ .rxByte b) :
    CollectedInv bytes t.db := by
  have hdevice := h.deviceInv inv.device
  by_cases hreset : i = .reset .db
  · subst hreset
    cases h
    exact ⟨hdevice, nofun, nofun⟩
  · obtain ⟨hstaging, hcnt, hready, hactive⟩ := h.staging_of_ne_rxByte hi hreset
    refine ⟨hdevice, fun ht => ?_, fun ht => ?_⟩
    · rw [hstaging, hcnt, inv.inProgress (hactive ht)]
    · rw [hstaging, inv.waiting (hready ht)]

/-- R28 item 5: a received byte starts a frame, or joins the one in progress. -/
theorem CollectedInv.rxByte {b : Byte} {s t : State} {bytes : List Byte}
    (inv : CollectedInv bytes s.db) (h : EventStep s (.rxByte b) t) :
    CollectedInv (if s.db.rxState = .idle then [b] else bytes ++ [b]) t.db := by
  have hdevice := h.deviceInv inv.device
  cases h with
  | rxFirst _ enabled idle =>
    rw [if_pos idle]
    exact ⟨hdevice, fun _ => take_succ_toList_set s.db.staging (by decide) b, nofun⟩
  | rxMiddle _ enabled active count =>
    have hidle : s.db.rxState ≠ .idle := by simp [active]
    rw [if_neg hidle, ← inv.inProgress active]
    exact ⟨hdevice, fun _ => take_succ_toList_set s.db.staging (by omega) b,
      fun hready => absurd (inv.device.readyIdle hready).1 hidle⟩
  | rxLast _ enabled active count =>
    rw [if_neg (by simp [active]), ← inv.inProgress active, count]
    refine ⟨hdevice, nofun, fun _ => ?_⟩
    rw [← take_succ_toList_set s.db.staging (by decide) b, List.take_of_length_le (by simp)]

theorem collected_cons_rxByte {b : Byte} {s t : State} (is : List Instr) (bytes : List Byte)
    (h : exec (.rxByte b) s = .next t) : collected (.rxByte b :: is) s bytes
      = collected is t (if s.db.rxState = .idle then [b] else bytes ++ [b]) := by
  simp only [collected, h]

theorem collected_cons_of_ne_rxByte {i : Instr} {s t : State} (is : List Instr) (bytes : List Byte)
    (hi : ∀ b, i ≠ .rxByte b) (h : exec i s = .next t) :
    collected (i :: is) s bytes = collected is t bytes := by
  rw [collected, h]
  exact hi

/-- R28 item 5: along a run, `collected` gives the bytes of the frame. -/
theorem CollectedInv.runEvents {events : List Instr} {s t : State} {bytes : List Byte}
    (inv : CollectedInv bytes s.db) (h : runEvents events s = .next t) :
    CollectedInv (collected events s bytes) t.db := by
  induction events generalizing s bytes with
  | nil => cases h; exact inv
  | cons i is ih =>
    obtain ⟨m, hm, ht⟩ := runEvents_cons_inv h
    have hstep := eventStep_of_exec hm
    by_cases hi : ∃ b, i = .rxByte b
    · obtain ⟨b, rfl⟩ := hi
      rw [collected_cons_rxByte is bytes hm]
      exact ih (inv.rxByte hstep) ht
    · rw [not_exists] at hi
      rw [collected_cons_of_ne_rxByte is bytes hi hm]
      exact ih (inv.of_ne_rxByte hstep hi) ht

/-- Settles O36: an idle receiver with the flag clear has collected nothing. -/
theorem waitingFrameIsOneWholeFrame : Obligations.WaitingFrameIsOneWholeFrame := by
  intro events s t hdevice hidle hready h hwaiting
  have inv : CollectedInv [] s.db := ⟨hdevice, by simp [hidle], by simp [hready]⟩
  exact (inv.runEvents h).waiting hwaiting

end Sys2Proof.Machine
end

section
/-! ## A whole send (spec/42_bus_transceiver.md R113, spec/30_encoding.md R72,
spec/70_reset_and_hazards.md R206) -/

namespace Sys2Proof.Machine

/-- R109: bytes that have left, or will leave, with `DE = 1`. -/
def driven (bytes : List Byte) : List WireByte := bytes.map fun b => ⟨b, true⟩

@[simp] theorem driven_nil : driven [] = [] := rfl

@[simp] theorem driven_append (first second : List Byte) :
    driven (first ++ second) = driven first ++ driven second := List.map_append

/-- R113: the send of `frame`, accepted with `before` on the wire, is in progress, and what has been
taken from `txbuf` is on the wire or queued. -/
structure SendInv (frame : List Byte) (before : List WireByte) (s : State) : Prop where
  sending : s.hb.sending = true
  nonempty : 0 < frame.length
  txLen : s.hb.txLen = frame.length
  loaded : ∀ (j : Nat) (hj : j < 69), j < frame.length → frame[j]? = some s.hb.txbuf[j]
  asserting : s.hb.btState = .txAssert → s.hb.txIdx = 0 ∧ s.hb.uartQ = []
  driving : s.hb.btState ≠ .txAssert → s.hb.de = true
  written : s.hb.btState = .txDrain ∨ s.hb.btState = .txRelease → s.hb.txIdx = frame.length
  writing : s.hb.btState = .txWrite → s.hb.txIdx < frame.length
  drained : s.hb.btState = .txRelease → s.hb.uartQ = []
  onWire : s.wire ++ driven s.hb.uartQ = before ++ driven (frame.take s.hb.txIdx)

/-- R113: an accepted send begins so. -/
theorem sendInv_of_send {source destination : Byte} {payload : List Byte} {s t : State}
    (h : EventStep s (.send source destination payload) t) (hq : s.hb.uartQ = [])
    (hlen : payload.length ≤ 64) :
    SendInv (frameBytes source destination payload) s.wire t := by
  cases h with
  | sendRejected _ _ ready long => omega
  | sendAccepted _ _ ready fits =>
    exact {
      sending := rfl
      nonempty := by simp
      txLen := rfl
      loaded := fun j hj hlt => getElem?_eq_some_overlay_getElem s.hb.txbuf hj hlt
      asserting := fun _ => ⟨rfl, hq⟩
      driving := by simp
      written := by simp
      writing := by simp
      drained := by simp
      onWire := by simp [hq] }

/-- R113: every event but the end of the send, an I/O error and a reset of the host keeps the send
in progress. -/
theorem SendInv.keep {frame : List Byte} {before : List WireByte} {i : Instr} {s t : State}
    (inv : SendInv frame before s) (h : EventStep s i t) (hrelease : i ≠ .txRelease)
    (hio : i ≠ .ioError) (hreset : i ≠ .reset .hb) : SendInv frame before t := by
  have hsending := inv.sending
  cases h with
  | resetHost => exact absurd rfl hreset
  | txRelease => exact absurd rfl hrelease
  | ioError => exact absurd rfl hio
  | btInitOpens _ closed | btInitOpenFails _ _ _ closed | btInitCloses _ closed =>
    simp [closed] at hsending
  | sendAccepted _ _ ready | sendRejected _ _ ready | btShutdown _ _ ready =>
    simp [ready] at hsending
  | txAssert inAssert =>
    obtain ⟨hidx, hq⟩ := inv.asserting inAssert
    exact { inv with
      sending := rfl
      asserting := nofun
      driving := fun _ => rfl
      written := nofun
      writing := fun _ => hidx.trans_lt inv.nonempty
      drained := nofun }
  | txWrite inWrite inRange =>
    have hlt := inv.writing inWrite
    have hbyte := inv.loaded s.hb.txIdx inRange hlt
    have honWire : s.wire ++ driven (s.hb.uartQ ++ [s.hb.txbuf[s.hb.txIdx]])
        = before ++ driven (frame.take (s.hb.txIdx + 1)) := by
      rw [List.take_add_one, hbyte, driven_append, driven_append, ← List.append_assoc, inv.onWire,
        List.append_assoc]
      rfl
    have hde : s.hb.de = true := inv.driving (by simp [inWrite])
    have htxLen := inv.txLen
    by_cases hlast : s.hb.txIdx + 1 = s.hb.txLen
    · rw [if_pos hlast]
      exact { inv with
        sending := rfl
        asserting := nofun
        driving := fun _ => hde
        written := fun _ => hlast.trans htxLen
        writing := nofun
        drained := nofun
        onWire := honWire }
    · rw [if_neg hlast]
      exact { inv with
        sending := rfl
        asserting := nofun
        driving := fun _ => hde
        written := by simp
        writing := fun _ => by simp only; omega
        drained := nofun
        onWire := honWire }
  | txDrainDone inDrain drained =>
    exact { inv with
      sending := rfl
      asserting := nofun
      driving := fun _ => inv.driving (by simp [inDrain])
      written := fun _ => inv.written (.inl inDrain)
      writing := nofun
      drained := fun _ => drained }
  | @lineByte b rest queued =>
    have hde : s.hb.de = true := inv.driving fun h => by simp [(inv.asserting h).2] at queued
    have honWire := inv.onWire
    rw [queued] at honWire
    exact { inv with
      asserting := fun h => by simp [(inv.asserting h).2] at queued
      drained := fun h => by simp [inv.drained h] at queued
      onWire := by simpa [hde, driven] using honWire }
  | _ => exact { inv with }

/-- R113: a send in `TxRelease` has put its frame on the wire. -/
theorem SendInv.wire_of_txRelease {frame : List Byte} {before : List WireByte} {s : State}
    (inv : SendInv frame before s) (hrelease : s.hb.btState = .txRelease) :
    s.wire = before ++ driven frame := by
  have honWire := inv.onWire
  rwa [inv.drained hrelease, inv.written (.inr hrelease), List.take_length, driven_nil,
    List.append_nil] at honWire

/-- Settles O21: `SendInv` from the acceptance to the last event before `TX_RELEASE`. -/
theorem successfulSendEmitsExactlyItsFrame : Obligations.SuccessfulSendEmitsExactlyItsFrame := by
  intro source destination payload events s t _ _ hq hlen hevents h
  obtain ⟨accepted, hsend, hrun⟩ := runEvents_cons_inv h
  obtain ⟨last, hbetween, hend⟩ := runEvents_append_inv hrun
  obtain ⟨_, hrelease, hnil⟩ := runEvents_cons_inv hend
  cases hnil
  have inv : SendInv (frameBytes source destination payload) s.wire last := by
    refine runEvents_keeps (fun i u v hi inv huv => ?_) hevents
      (sendInv_of_send (eventStep_of_exec hsend) hq hlen) hbetween
    exact inv.keep (eventStep_of_exec huv) hi.1 hi.2.1 hi.2.2
  cases eventStep_of_exec hrelease with
  | txRelease inRelease =>
    exact ⟨inv.wire_of_txRelease inRelease, rfl, rfl, inv.drained inRelease, rfl⟩

/-! ### `run_send` -/

/-- R72: one pair of `TX_WRITE` and `LINE_BYTE`. -/
theorem reaches_writePair {s : State} (hwrite : s.hb.btState = .txWrite) (hq : s.hb.uartQ = [])
    (hidx : s.hb.txIdx < 69) : Reaches [.txWrite, .lineByte] s fun t =>
      t.hb.btState = (if s.hb.txIdx + 1 = s.hb.txLen then .txDrain else .txWrite) ∧
      t.hb.uartQ = [] ∧ t.hb.txIdx = s.hb.txIdx + 1 ∧ t.hb.txLen = s.hb.txLen := by
  have hstep := EventStep.txWrite hwrite hidx
  rw [hq] at hstep
  exact ⟨_, (runEvents_cons_next (exec_of_eventStep hstep)).trans
    (runEvents_cons_next (exec_of_eventStep (.lineByte rfl))), rfl, rfl, rfl, rfl⟩

/-- R72: as many pairs as bytes are left to write. -/
theorem reaches_writePairs (n : Nat) {s : State} (hwrite : s.hb.btState = .txWrite)
    (hq : s.hb.uartQ = []) (hidx : s.hb.txIdx + (n + 1) = s.hb.txLen) (hlen : s.hb.txLen ≤ 69) :
    Reaches (writePairs (n + 1)) s fun t => t.hb.btState = .txDrain ∧ t.hb.uartQ = [] := by
  induction n generalizing s with
  | zero =>
    refine (reaches_writePair hwrite hq (by omega)).mono fun t ⟨hstate, hq, _⟩ => ?_
    rw [if_pos hidx] at hstate
    exact ⟨hstate, hq⟩
  | succ n ih =>
    refine (reaches_writePair hwrite hq (by omega)).append fun t ⟨hstate, hq, hidx', hlen'⟩ => ?_
    rw [if_neg (by omega)] at hstate
    exact ih hstate hq (by omega) (by omega)

/-- R72, R113: the schedule of a send from `TxAssert`. -/
theorem reaches_runSend (n : Nat) {s : State} (hassert : s.hb.btState = .txAssert)
    (hq : s.hb.uartQ = []) (hidx : s.hb.txIdx = 0) (htxLen : s.hb.txLen = n + 1)
    (hlen : n + 1 ≤ 69) :
    Reaches (runSend (n + 1)) s fun t => t.hb.btState = .ready ∧ t.hb.uartQ = [] := by
  have hasserted : Reaches [.txAssert] s fun t => t.hb.btState = .txWrite ∧ t.hb.uartQ = [] ∧
      t.hb.txIdx = 0 ∧ t.hb.txLen = n + 1 :=
    (EventStep.txAssert hassert).reaches ⟨rfl, hq, hidx, htxLen⟩
  refine hasserted.cons fun t ⟨hwrite, hq, hidx, htxLen⟩ => ?_
  refine (reaches_writePairs n hwrite hq (by omega) (by omega)).append fun u ⟨hdrain, hq⟩ => ?_
  have hdrained : Reaches [.txDrainDone] u fun v => v.hb.btState = .txRelease ∧ v.hb.uartQ = [] :=
    (EventStep.txDrainDone hdrain hq).reaches ⟨rfl, hq⟩
  exact hdrained.cons fun v ⟨hrelease, hq⟩ => (EventStep.txRelease hrelease).reaches ⟨rfl, hq⟩

/-- R72: the schedule consists of events of the host block. -/
theorem block_of_mem_runSend {n : Nat} {i : Instr} (h : i ∈ runSend n) : i.block = some .hb := by
  have hpairs : ∀ n, ∀ i ∈ writePairs n, i.block = some .hb := by
    intro n
    induction n with
    | zero => simp [writePairs]
    | succ n ih => simpa [writePairs, Instr.block] using ih
  simp only [runSend, List.mem_cons, List.mem_append, List.not_mem_nil, or_false] at h
  rcases h with rfl | h | rfl | rfl
  · rfl
  · exact hpairs n i h
  · rfl
  · rfl

/-- R10: a run of events of the host block leaves the device block as it was. -/
theorem runEvents_device_of_block_hb {events : List Instr} {s t : State}
    (hblock : ∀ i ∈ events, i.block = some .hb) (h : runEvents events s = .next t) :
    t.db = s.db :=
  runEvents_keeps (P := fun u => u.db = s.db)
    (fun _ _ _ hi hu huv => ((eventStep_of_exec huv).device_of_block_hb hi).1.trans hu) hblock rfl h

/-- R134: a tick starts no frame. -/
theorem countDown_idle {d : DB} (h : d.rxState = .idle) : d.countDown.rxState = .idle := by
  obtain ⟨-, hd⟩ | ⟨-, -, hd⟩ | ⟨-, -, hd⟩ := countDown_cases d <;> simp [hd, h]

/-- R206: only an accepted `SEND` and a received byte end quiescence. -/
theorem EventStep.quiescent {i : Instr} {s t : State} (h : EventStep s i t) (hs : Quiescent s) :
    Quiescent t ∨
      (∃ source destination payload, i = .send source destination payload ∧ payload.length ≤ 64) ∨
      ∃ b, i = .rxByte b := by
  obtain ⟨hq, hstate, hidle, hready⟩ := hs
  cases h with
  | sendAccepted source destination ready fits => exact .inr (.inl ⟨_, _, _, rfl, fits⟩)
  | rxFirst b | rxMiddle b | rxLast b => exact .inr (.inr ⟨b, rfl⟩)
  | resetHost => exact .inl ⟨rfl, .inr rfl, hidle, hready⟩
  | resetDevice => exact .inl ⟨hq, hstate, rfl, rfl⟩
  | btInitOpens => exact .inl ⟨hq, .inl rfl, hidle, hready⟩
  | btShutdown => exact .inl ⟨rfl, .inr rfl, hidle, hready⟩
  | txAssert inState | txWrite inState | txDrainDone inState | txRelease inState =>
    simp [inState] at hstate
  | lineByte queued => simp [hq] at queued
  | ioError sending => rcases hstate with hb | hb <;> simp [hb] at sending
  | tick =>
    exact .inl ⟨hq, hstate, countDown_idle hidle, (countDown_dataReady s.db).trans hready⟩
  | pwmTransfers | transferCopies => exact .inl ⟨hq, hstate, hidle, rfl⟩
  | idleTimeout => exact .inl ⟨hq, hstate, rfl, hready⟩
  | _ => exact .inl ⟨hq, hstate, hidle, hready⟩

/-- Settles O22: `reaches_runSend` after the row of an accepted `SEND`, and
`EventStep.quiescent`. -/
theorem runSendCompletes : Obligations.RunSendCompletes := by
  constructor
  · intro source destination payload s hready hq hlen
    have hsend := EventStep.sendAccepted source destination hready hlen
    have hlen' := frameBytes_length source destination payload
    have hrun := (hsend.reaches (P := fun t => t.hb.btState = .txAssert ∧ t.hb.uartQ = [] ∧
      t.hb.txIdx = 0 ∧ t.hb.txLen = 5 + payload.length) ⟨rfl, hq, rfl, hlen'⟩).cons
      fun t ⟨hassert, hq, hidx, htxLen⟩ =>
        reaches_runSend (4 + payload.length) hassert hq hidx (by omega) (by omega)
    rw [show 4 + payload.length + 1 = 5 + payload.length by omega] at hrun
    obtain ⟨t, ht, hstate, hq'⟩ := hrun
    have hdb : t.db = s.db := runEvents_device_of_block_hb
      (List.forall_mem_cons.mpr ⟨rfl, fun i => block_of_mem_runSend⟩) ht
    refine ⟨t, ht, fun ⟨_, _, hidle, hready⟩ => ⟨hq', .inl hstate, ?_, ?_⟩⟩ <;> rw [hdb]
    · exact hidle
    · exact hready
  · intro i s t hs h hnot
    exact ((eventStep_of_exec h).quiescent hs).resolve_left hnot

end Sys2Proof.Machine
end

section
/-! ## Checksums and frames (spec/40_checksum.md R84, R86, spec/41_frame_codec.md R92, R94) -/

namespace Sys2Proof.Machine

/-! ### `CK_VERIFY` -/

/-- R86: `CK_VERIFY` has a step in every state, and it changes the result alone. -/
theorem exec_ckVerify (bytes : List Byte) (expected : Byte) (s : State) :
    exec (.ckVerify bytes expected) s
      = .next { s with result := some ⟨.ckVerify, .bit (decide (ck bytes = expected))⟩ } :=
  rfl

/-- R84: inverting one bit of one byte changes the checksum. -/
theorem ck_flipBit_ne (bytes : List Byte) {k : Nat} (hk : k < bytes.length) {j : Nat} (hj : j < 8) :
    ck (bytes.set k (Byte.flipBit bytes[k] j)) ≠ ck bytes :=
  Config.checksum.singleBit bytes k hk j hj

/-- Settles O2: the comparison is true of the checksum itself, and false by R84. -/
theorem ckVerifyComparesChecksum : Obligations.CkVerifyComparesChecksum := by
  refine ⟨exec_ckVerify, fun bytes s => ?_, fun bytes k hk j s hj => ?_⟩
  · rw [exec_ckVerify, decide_eq_true rfl]
  · rw [exec_ckVerify, decide_eq_false (ck_flipBit_ne bytes hk hj)]

/-! ### Injective folds -/

/-- R84: a fold that is injective in the running value keeps two running values apart. -/
theorem foldl_injective {step : Byte → Byte → Byte}
    (hstate : ∀ b, Function.Injective fun c => step c b)
    (bytes : List Byte) : Function.Injective fun c => bytes.foldl step c := by
  induction bytes with
  | nil => exact Function.injective_id
  | cons b bytes ih => exact ih.comp (hstate b)

/-- Settles O3: before the changed byte the running values agree, at it they part, and after it they
stay apart. -/
theorem oneByteChangeIsDetected : Obligations.OneByteChangeIsDetected := by
  intro init step hdata hstate bytes k hk b hne heq
  rw [List.set_eq_take_append_cons_drop, if_pos hk] at heq
  conv at heq => rhs; rw [← List.take_append_drop k bytes, List.drop_eq_getElem_cons hk]
  simp only [checksumFold, List.foldl_append, List.foldl_cons] at heq
  exact hne (hdata _ (foldl_injective hstate _ heq))

/-! ### The layout of a frame -/

/-- R60: the declared length of a payload that fits is its length. -/
theorem toNat_payloadLength {payload : List Byte} (h : payload.length ≤ 64) :
    (BitVec.ofNat 8 payload.length).toNat = payload.length := by
  rw [BitVec.toNat_ofNat]
  omega

/-- R90: all of a frame but its last byte. -/
@[simp] theorem dropLast_frameBytes (source destination : Byte) (payload : List Byte) :
    (frameBytes source destination payload).dropLast
      = 0x40 :: destination :: source :: BitVec.ofNat 8 payload.length :: payload := by
  rw [frameBytes, frameWith, List.dropLast_concat]
  rfl

/-- R90: the last byte of a frame is the checksum of all before it. -/
theorem getLast?_frameBytes (source destination : Byte) (payload : List Byte) :
    (frameBytes source destination payload).getLast?
      = some (ck (frameBytes source destination payload).dropLast) := by
  rw [frameBytes, frameWith, List.dropLast_concat, List.getLast?_concat]

/-- R92: distinct operands give distinct frames. -/
theorem frameBytes_injective {source destination source' destination' : Byte}
    {payload payload' : List Byte}
    (h : frameBytes source destination payload = frameBytes source' destination' payload') :
    source = source' ∧ destination = destination' ∧ payload = payload' := by
  have hbody := congrArg List.dropLast h
  simp only [dropLast_frameBytes, List.cons.injEq] at hbody
  obtain ⟨-, hdestination, hsource, -, hpayload⟩ := hbody
  exact ⟨hsource, hdestination, hpayload⟩

/-- Settles O5: the fields by the bytes of the frame in wire order, the rest by
`frameBytes_injective`. -/
theorem encodedFrameLayout : Obligations.EncodedFrameLayout := by
  constructor
  · intro source destination payload hlen
    refine ⟨frameBytes_length source destination payload, rfl, rfl, rfl,
      congrArg some (toNat_payloadLength hlen), fun k hk => ?_, ?_⟩
    · rw [frameBytes_eq, Nat.add_comm 4 k]
      simp [List.getElem?_append_left hk]
    · rw [take_checked_eq_dropLast (frameBytes_length source destination payload),
        ← getLast?_frameBytes, List.getLast?_eq_getElem?, frameBytes_length]
      congr 1
      omega
  · intro source destination source' destination' payload payload' _ _ h
    exact frameBytes_injective h

/-! ### Round trip -/

/-- R94: what `ENCODE` builds is a frame. -/
theorem isFrame_frameBytes (source destination : Byte) {payload : List Byte}
    (hlen : payload.length ≤ 64) : IsFrame (frameBytes source destination payload) := by
  have hdeclared : ((frameBytes source destination payload).getD 3 0).toNat = payload.length :=
    toNat_payloadLength hlen
  refine ⟨?_, rfl, ?_, ?_, getLast?_frameBytes source destination payload⟩
  · rw [frameBytes_length]; omega
  · rwa [hdeclared]
  · rw [hdeclared, frameBytes_length]

/-- R90: a frame is its checked bytes followed by their checksum. -/
theorem eq_append_ck_of_getLast? {bytes : List Byte}
    (h : bytes.getLast? = some (ck bytes.dropLast)) :
    bytes = bytes.dropLast ++ [ck bytes.dropLast] :=
  (List.dropLast_append_getLast? _ h).symm

/-- R94: a frame is what `ENCODE` builds from the fields `DECODE` reads. -/
theorem IsFrame.eq_frameBytes {bytes : List Byte} (h : IsFrame bytes) :
    (bytes.dropLast.drop 4).length ≤ 64 ∧
      bytes = frameBytes (bytes.getD 2 0) (bytes.getD 1 0) (bytes.dropLast.drop 4) := by
  obtain ⟨hlen, hpreamble, hmax, htotal, hck⟩ := h
  have hsplit := eq_append_ck_of_getLast? hck
  generalize bytes.dropLast = checked at hsplit ⊢
  subst hsplit
  match checked with
  | [] | [_] | [_, _] | [_, _, _] => simp at hlen
  | first :: destination :: source :: declared :: payload =>
    obtain rfl : first = 0x40 := Option.some.inj hpreamble
    have hpayload : payload.length = declared.toNat := by
      simp only [List.length_append, List.length_cons, List.length_nil,
        List.cons_append, List.getD_cons_succ, List.getD_cons_zero] at htotal
      omega
    have hdeclared : declared = BitVec.ofNat 8 payload.length := by
      rw [hpayload, BitVec.ofNat_toNat, BitVec.setWidth_eq]
    refine ⟨hpayload.trans_le hmax, ?_⟩
    rw [frameBytes_eq, hdeclared]
    rfl

/-- Settles O7: a frame that was built passes the tests and gives its fields back, and what passes
them was built. -/
theorem decodeInvertsEncode : Obligations.DecodeInvertsEncode := by
  constructor
  · intro source destination payload s hlen
    have hread := decodeFrame_of_isFrame (isFrame_frameBytes source destination hlen)
    rw [dropLast_frameBytes] at hread
    exact exec_frameDecode_of_ok hread s
  · intro bytes source destination payload s t h hresult
    by_cases hframe : IsFrame bytes
    · rw [exec_frameDecode_of_ok (decodeFrame_of_isFrame hframe)] at h
      cases h
      cases hresult
      exact hframe.eq_frameBytes
    · rw [exec_frameDecode_of_error (decodeFrame_of_not_isFrame hframe)] at h
      cases h
      cases hresult

/-- A byte with one bit inverted is another byte. -/
theorem flipBit_ne (b : Byte) {j : Nat} (hj : j < 8) : Byte.flipBit b j ≠ b := by
  intro h
  have hbit := congrArg (fun v : Byte => v.getLsbD j) h
  simp [Byte.flipBit, hj] at hbit

/-- R94: a frame with one bit inverted is none: its last byte is not the checksum of the others. -/
theorem IsFrame.not_isFrame_flipBit {bytes : List Byte} (h : IsFrame bytes) {k : Nat}
    (hk : k < bytes.length) {j : Nat} (hj : j < 8) :
    ¬ IsFrame (bytes.set k (Byte.flipBit bytes[k] j)) := by
  intro hflipped
  obtain ⟨-, -, -, -, hck⟩ := h
  obtain ⟨-, -, -, -, hck'⟩ := hflipped
  have hsplit := eq_append_ck_of_getLast? hck
  generalize bytes.dropLast = checked at hsplit
  subst hsplit
  rcases Nat.lt_or_ge k checked.length with hbody | hlast
  · rw [List.getElem_append_left hbody, List.set_append_left _ _ hbody, List.dropLast_concat,
      List.getLast?_concat] at hck'
    exact ck_flipBit_ne checked hbody hj (Option.some.inj hck').symm
  · obtain rfl : k = checked.length := by simp at hk; omega
    rw [List.set_append_right _ _ le_rfl, Nat.sub_self, List.set_cons_zero, List.dropLast_concat,
      List.getLast?_concat, List.getElem_concat_length rfl] at hck'
    exact flipBit_ne _ hj (Option.some.inj hck')

/-- Settles O8: the inverted frame is none. -/
theorem flippedFrameBitIsRejected : Obligations.FlippedFrameBitIsRejected := by
  intro source destination payload s k j hk hlen hj
  have hframe := isFrame_frameBytes source destination hlen
  exact exec_frameDecode_of_error
    (decodeFrame_of_not_isFrame (hframe.not_isFrame_flipBit hk hj)) s

end Sys2Proof.Machine
end

section
/-! ## `BT_INIT` and reset (spec/42_bus_transceiver.md R102, spec/70_reset_and_hazards.md R200) -/

namespace Sys2Proof.Machine

/-- Settles O9: the row of a `BT_INIT` that succeeds. -/
theorem btInitOpensLine : Obligations.BtInitOpensLine :=
  fun baud _ _ hclosed hclaim => exec_btInit_of_ok baud hclosed hclaim

/-- R23: closing the line of a closed block changes nothing. -/
theorem HostInv.close_of_closed {h : HB} (inv : HostInv h) (hclosed : h.btState = .closed) :
    { h with lineOpen := false } = h := by
  rw [← inv.closedLine.mp hclosed]

/-- Settles O10: a `BT_INIT` that fails leaves the line as it is or closes it, and it was closed. -/
theorem btInitFailureLeavesBlockAsBefore : Obligations.BtInitFailureLeavesBlockAsBefore := by
  intro baud openOk cfgOk claim s
  refine ⟨fun inv hclosed hfail => ?_, fun hopen => if_neg hopen⟩
  cases openOk with
  | false => exact exec_btInit_of_open_fails baud cfgOk claim hclosed
  | true =>
    rw [exec_btInit_of_later_fails baud hclosed (by simpa using hfail), inv.close_of_closed hclosed]

/-- Settles O46: the rows of the two resets; the free values are within their ranges by the
invariants of a block after a reset. -/
theorem resetPutsBlockAtResetValues : Obligations.ResetPutsBlockAtResetValues := by
  refine ⟨fun s => ⟨_, execReset_hb s, ?_⟩, fun s => ⟨_, execReset_db s, ?_⟩⟩
  · have inv := hostInv_resetWith s.hostDraws
    exact ⟨rfl, rfl, rfl, rfl, rfl, inv.txLenRange.1, inv.txLenRange.2, inv.txIdxRange, ⟨_, rfl⟩,
      rfl, rfl, rfl, rfl, rfl, rfl⟩
  · have inv := deviceInv_resetWith s.deviceDraws
    exact ⟨rfl, rfl, rfl, rfl, rfl, rfl, rfl, rfl, rfl, rfl, inv.tmrCntRange, rfl, rfl, rfl, rfl,
      rfl, rfl⟩

/-- Settles O47: the registers of the reset state, read one by one. -/
theorem resetStateHasSpecValues : Obligations.ResetStateHasSpecValues := by
  unfold Obligations.ResetStateHasSpecValues
  decide

/-- R28 at reset, the device block. -/
theorem deviceInv_atReset : DeviceInv DB.atReset := by
  constructor <;> simp [DB.atReset]

/-- R10 at reset, the host block. -/
theorem hostInv_atReset : HostInv HB.atReset := by
  constructor <;> simp [HB.atReset]

/-- Settles O55: the invariants of the two blocks; both are quiet, and nothing has been emitted. -/
theorem resetMeetsInvariants : Obligations.ResetMeetsInvariants :=
  ⟨⟨deviceInv_atReset, hostInv_atReset⟩, ⟨rfl, .inr rfl, rfl, rfl⟩,
    hostClean_of_quiet (.inr rfl) rfl rfl, List.nil_suffix⟩

end Sys2Proof.Machine
end
